-- ==== Sys2Proof/Word.lean ====
section
/-! DEFINITION. The words of the block: a nibble, a buffer entry, and the 16-bit word of a command, a CSR or a response
(00_scope.md R10, R12; 30_encoding.md R90). -/

namespace Sys2Proof

/-- A 4-bit value, what one codec symbol stands for (00_scope.md R10). -/
abbrev Nibble := BitVec 4

/-- A buffer entry or a frame byte (00_scope.md R10). -/
abbrev Byte := BitVec 8

/-- A command word, a CSR value, response data, the bit history (30_encoding.md R90, 10_state.md R21). -/
abbrev Word := BitVec 16

end Sys2Proof
end

