-- ==== Sys2Proof/Config.lean ====
section
/-! DEFINITION. What an implementation fixes (the type of the parameter record, 00_scope.md R9) and the free values
(00_scope.md R16). The reference set P0 and the well-formedness conditions are in Machine/Parameters.lean. -/

namespace Sys2Proof

/-- `RX_OVERRUN`: what a start symbol does while a frame waits (00_scope.md R9, 90_conflicts.md C1). -/
inductive Overrun where
  | hold
  | replace
  deriving DecidableEq, Repr

/-- The two byte buffers of the block (10_state.md R50). -/
inductive Buffer where
  | rx
  | tx
  deriving DecidableEq, Repr

/-- The parameter record of 00_scope.md R9, one field per row of its table. `enc` is the table of `enc4`, entry `n` the
symbol of nibble `n`; `dec4` is its inverse (log 8). `linkLayer` says whether the link-layer contract is in use, the
condition of R11 item 13 (log 4). -/
structure Params where
  oversampling   : Nat
  symbolBits     : Nat
  startSymbol    : Word
  preamble       : List Byte
  enc            : List Byte
  rampMax        : Nat
  rampInc        : Nat
  rampTransition : Nat
  rampIncRetard  : Nat
  rampIncAdvance : Nat
  integThreshold : Nat
  headerSize     : Nat
  payloadMax     : Nat
  messageMin     : Nat
  messageMax     : Nat
  rxBufCap       : Nat
  txBufCap       : Nat
  rxOverrun      : Overrun
  rxGatedByTx    : Bool
  linkLayer      : Bool
  deriving DecidableEq, Repr

/-- The byte that index `i` of buffer `b` holds after reset number `reset` until something writes it: `draw_8()` of
10_state.md R40. A free value (log 6). -/
opaque Config.freeByte (b : Buffer) (reset i : Nat) : Byte

/-- The nibble of draw number `n`: `draw_4()` of 30_encoding.md R99. A free value (log 7). -/
opaque Config.freeNibble (n : Nat) : Nibble

end Sys2Proof
end

