-- ==== Sys2Proof/Syntax.lean ====
section
/-! DEFINITION. The operations of the block, one constructor per row of spec/opcode_table.json (30_encoding.md R93). -/

namespace Sys2Proof

/-- The ten host commands and the tick. -/
inductive Instr where
  /-- `NOP` (44_host_system_commands.md R190). -/
  | nop
  /-- `RESET` (44_host_system_commands.md R193). -/
  | reset
  /-- `CSR_RD n` (44_host_system_commands.md R192). -/
  | csrRd (n : Byte)
  /-- `RX_ENABLE` (42_host_rx_commands.md R170). -/
  | rxEnable
  /-- `RX_DISABLE` (42_host_rx_commands.md R171). -/
  | rxDisable
  /-- `RX_CLEAR` (42_host_rx_commands.md R172). -/
  | rxClear
  /-- `RX_READ i` (42_host_rx_commands.md R173). -/
  | rxRead (i : Byte)
  /-- `TX_CLEAR` (43_host_tx_commands.md R180). -/
  | txClear
  /-- `TX_PUSH s` (43_host_tx_commands.md R181). -/
  | txPush (s : Byte)
  /-- `TX_START` (43_host_tx_commands.md R182). -/
  | txStart
  /-- `TICK x` (40_tick_rx.md R120, 41_tick_tx.md R150). -/
  | tick (x : Bool)
  deriving DecidableEq, Repr

end Sys2Proof
end

