-- ==== Sys2Proof/WellFormed.lean ====
section
/-! DEFINITION. Which operation may arrive by which way. Every operand value of the syntax fits its field (30_encoding.md
R94), so what can be ill-formed is the way: a tick on the command port, a command on the strobe (30_encoding.md R91). The
conditions on a parameter set are in Machine/Parameters.lean. -/

namespace Sys2Proof

/-- The two ways an operation reaches the block: the word port `cmd_i`, and the strobe `tick_i` with `rx_in_i`
(30_encoding.md R91, 10_state.md R52). -/
inductive Way where
  | command
  | strobe
  deriving DecidableEq, Repr

/-- Formats N and A arrive on `cmd_i`, format T on the strobe, and neither on the other (30_encoding.md R91). -/
def Instr.wf (way : Way) : Instr → Bool
  | .nop => way = .command
  | .reset => way = .command
  | .csrRd _ => way = .command
  | .rxEnable => way = .command
  | .rxDisable => way = .command
  | .rxClear => way = .command
  | .rxRead _ => way = .command
  | .txClear => way = .command
  | .txPush _ => way = .command
  | .txStart => way = .command
  | .tick _ => way = .strobe

end Sys2Proof
end

