-- ==== Sys2Proof/Decode.lean ====
section
/-! DEFINITION. Decoding and encoding of operation words (30_encoding.md R90 to R94, R96), and the opcode map as rows. -/

namespace Sys2Proof

/-- Why a word spells no operation (30_encoding.md R96). -/
inductive Reject where
  /-- `rsv` is not 0. -/
  | rsvNotZero
  /-- `op` is 0xA to 0xE. -/
  | reservedOp
  /-- Format N with `arg` not 0. -/
  | argNotZero
  /-- `op` is 0xF and `arg[7:1]` is not 0. -/
  | tickArgNotZero
  /-- `op` is 0xF on the command port. -/
  | tickOnCommandPort
  deriving DecidableEq, Repr

/-- `op`, bits 15:12 (30_encoding.md R90). -/
def opField (w : Word) : BitVec 4 := w.extractLsb' 12 4

/-- `rsv`, bits 11:8 (30_encoding.md R90). -/
def rsvField (w : Word) : BitVec 4 := w.extractLsb' 8 4

/-- `arg`, bits 7:0 (30_encoding.md R90). -/
def argField (w : Word) : Byte := w.extractLsb' 0 8

/-- Format N: `arg` must be 0 (30_encoding.md R91). -/
def formatN (arg : Byte) (i : Instr) : Except Reject Instr :=
  if arg = 0 then .ok i else .error .argNotZero

/-- Format T: `arg[7:1]` must be 0, `arg[0]` is the sample (30_encoding.md R91). -/
def formatT (arg : Byte) : Except Reject Instr :=
  if arg >>> 1 = 0 then .ok (.tick (arg.getLsbD 0)) else .error .tickArgNotZero

/-- The word of a written run (30_encoding.md R93, R96, R105): the ten commands and `TICK`. -/
def decodeRunWord (w : Word) : Except Reject Instr :=
  let arg := argField w
  if rsvField w ≠ 0 then .error .rsvNotZero else
  match (opField w).toNat with
  | 0 => formatN arg .nop
  | 1 => formatN arg .reset
  | 2 => .ok (.csrRd arg)
  | 3 => formatN arg .rxEnable
  | 4 => formatN arg .rxDisable
  | 5 => formatN arg .rxClear
  | 6 => .ok (.rxRead arg)
  | 7 => formatN arg .txClear
  | 8 => .ok (.txPush arg)
  | 9 => formatN arg .txStart
  | 15 => formatT arg
  | _ => .error .reservedOp

/-- The word on `cmd_i`: as in a written run, but `op` 0xF spells no command (30_encoding.md R91, R96). -/
def decodeCommand (w : Word) : Except Reject Instr :=
  if opField w = 0xF then .error .tickOnCommandPort else decodeRunWord w

/-- The instruction of an opcode-table row's bits, read by the decoder of a written run, which knows the `TICK` row too. -/
def decodeTableWord (nbits w : Nat) : Option Instr :=
  if nbits ≤ 16 ∧ w < 2 ^ nbits then (decodeRunWord (BitVec.ofNat 16 w)).toOption else none

/-- The word of fields `op` and `arg`, `rsv` being 0 (30_encoding.md R90). -/
def opWord (op : BitVec 4) (arg : Byte) : Word := (op.setWidth 16 <<< 12) ||| arg.setWidth 16

/-- The word that spells an operation (30_encoding.md R93). -/
def encode : Instr → Word
  | .nop => opWord 0x0 0
  | .reset => opWord 0x1 0
  | .csrRd n => opWord 0x2 n
  | .rxEnable => opWord 0x3 0
  | .rxDisable => opWord 0x4 0
  | .rxClear => opWord 0x5 0
  | .rxRead i => opWord 0x6 i
  | .txClear => opWord 0x7 0
  | .txPush s => opWord 0x8 s
  | .txStart => opWord 0x9 0
  | .tick x => opWord 0xF (BitVec.setWidth 8 (BitVec.ofBool x))

/-- One row of the opcode map: the words `w` with `w & mask = pattern` select it (30_encoding.md R93). -/
structure OpcodeRow where
  mnemonic : String
  pattern  : Word
  mask     : Word
  deriving DecidableEq, Repr

/-- The row of an operation in the table of 30_encoding.md R93. -/
def Instr.row : Instr → OpcodeRow
  | .nop => ⟨"NOP", 0x0000, 0xFFFF⟩
  | .reset => ⟨"RESET", 0x1000, 0xFFFF⟩
  | .csrRd _ => ⟨"CSR_RD", 0x2000, 0xFF00⟩
  | .rxEnable => ⟨"RX_ENABLE", 0x3000, 0xFFFF⟩
  | .rxDisable => ⟨"RX_DISABLE", 0x4000, 0xFFFF⟩
  | .rxClear => ⟨"RX_CLEAR", 0x5000, 0xFFFF⟩
  | .rxRead _ => ⟨"RX_READ", 0x6000, 0xFF00⟩
  | .txClear => ⟨"TX_CLEAR", 0x7000, 0xFFFF⟩
  | .txPush _ => ⟨"TX_PUSH", 0x8000, 0xFF00⟩
  | .txStart => ⟨"TX_START", 0x9000, 0xFFFF⟩
  | .tick _ => ⟨"TICK", 0xF000, 0xFFFE⟩

/-- The opcode map, in the order of 30_encoding.md R93. -/
def opcodeMap : List OpcodeRow :=
  [Instr.nop, .reset, .csrRd 0, .rxEnable, .rxDisable, .rxClear, .rxRead 0, .txClear, .txPush 0, .txStart,
    .tick false].map Instr.row

end Sys2Proof
end

