-- ==== Sys2Proof/Machine/Parameters.lean ====
section
/-! DEFINITION. The reference parameter set P0 (00_scope.md R9, codec C0 of 30_encoding.md R97) and the thirteen conditions
of a well-formed set (00_scope.md R11). -/

namespace Sys2Proof

namespace Params

/-- `PREAMBLE_MAX`, the number of preamble entries (00_scope.md R9). -/
def preambleMax (p : Params) : Nat := p.preamble.length

/-- The symbol table of codec C0 (30_encoding.md R97). -/
def encC0 : List Byte :=
  [0x0D, 0x0E, 0x13, 0x15, 0x16, 0x19, 0x1A, 0x1C, 0x23, 0x25, 0x26, 0x29, 0x2A, 0x2C, 0x32, 0x34]

/-- The reference set P0, column "P0 value" of 00_scope.md R9 (log 13). -/
def p0 : Params where
  oversampling := 8
  symbolBits := 6
  startSymbol := 0xB38
  preamble := [0x2A, 0x2A, 0x2A, 0x2A, 0x2A, 0x2A, 0x38, 0x2C]
  enc := encC0
  rampMax := 160
  rampInc := 20
  rampTransition := 80
  rampIncRetard := 11
  rampIncAdvance := 29
  integThreshold := 5
  headerSize := 5
  payloadMax := 30
  messageMin := 8
  messageMax := 38
  rxBufCap := 38
  txBufCap := 84
  rxOverrun := .hold
  rxGatedByTx := false
  linkLayer := true

/-- Every entry of a list is below `2^k`. -/
def allBelow (k : Nat) (l : List Byte) : Bool := l.all fun s => s.toNat < 2 ^ k

/-- No entry of a list stands in it twice. -/
def distinct : List Byte → Bool
  | [] => true
  | s :: l => !l.contains s && distinct l

/-- `ceil(a / b)` (00_scope.md R12). -/
def ceilDiv (a b : Nat) : Nat := (a + b - 1) / b

/-- 00_scope.md R11 item 1. -/
def oversamplingOk (p : Params) : Bool := p.oversampling = 8

/-- 00_scope.md R11 item 2. -/
def symbolBitsOk (p : Params) : Bool := 1 ≤ p.symbolBits ∧ p.symbolBits ≤ 8

/-- 00_scope.md R11 item 3. -/
def startSymbolOk (p : Params) : Bool :=
  p.startSymbol.toNat < 2 ^ (2 * p.symbolBits) ∧ p.startSymbol ≠ 0

/-- 00_scope.md R11 item 4: the last two preamble entries are the start symbol, low half first. -/
def preambleOk (p : Params) : Bool :=
  2 ≤ p.preambleMax ∧ allBelow p.symbolBits p.preamble ∧
    p.preamble.drop (p.preambleMax - 2) =
      [BitVec.ofNat 8 (p.startSymbol.toNat % 2 ^ p.symbolBits),
        BitVec.ofNat 8 (p.startSymbol.toNat / 2 ^ p.symbolBits % 2 ^ p.symbolBits)]

/-- 00_scope.md R11 item 5: `enc4` is a function of the sixteen nibbles, injective, with values below `2^W`; `dec4` is
its inverse by definition (log 8). -/
def codecOk (p : Params) : Bool :=
  p.enc.length = 16 ∧ allBelow p.symbolBits p.enc ∧ distinct p.enc

/-- 00_scope.md R11 item 6. -/
def rampOk (p : Params) : Bool :=
  0 < p.rampMax ∧ p.oversampling ∣ p.rampMax ∧ p.rampInc = p.rampMax / p.oversampling ∧
    p.rampTransition = p.rampMax / 2

/-- 00_scope.md R11 item 7. -/
def incrementsOk (p : Params) : Bool :=
  1 ≤ p.rampIncRetard ∧ p.rampIncRetard ≤ p.rampInc ∧ p.rampInc ≤ p.rampIncAdvance ∧ p.rampIncAdvance ≤ p.rampMax

/-- 00_scope.md R11 item 8. -/
def rampFits (p : Params) : Bool := p.rampMax + p.rampIncAdvance ≤ 65535

/-- 00_scope.md R11 item 9. -/
def integFits (p : Params) : Bool := ceilDiv p.rampMax p.rampIncRetard ≤ 255

/-- 00_scope.md R11 item 10. -/
def thresholdOk (p : Params) : Bool := 1 ≤ p.integThreshold ∧ p.integThreshold ≤ p.oversampling

/-- 00_scope.md R11 item 11. -/
def messageOk (p : Params) : Bool :=
  1 ≤ p.messageMin ∧ p.messageMin ≤ p.messageMax ∧ p.messageMax ≤ p.rxBufCap ∧ p.rxBufCap ≤ 255

/-- 00_scope.md R11 item 12. -/
def txBufOk (p : Params) : Bool := p.preambleMax + 2 * p.messageMax ≤ p.txBufCap ∧ p.txBufCap ≤ 255

/-- 00_scope.md R11 item 13, asked for only where the link-layer contract is in use. -/
def linkLayerOk (p : Params) : Bool :=
  p.linkLayer = true →
    p.messageMin = 1 + p.headerSize + 2 ∧ p.messageMax = 1 + p.headerSize + p.payloadMax + 2

/-- A well-formed parameter set: all thirteen conditions of 00_scope.md R11. -/
def wf (p : Params) : Bool :=
  p.oversamplingOk && p.symbolBitsOk && p.startSymbolOk && p.preambleOk && p.codecOk && p.rampOk && p.incrementsOk &&
    p.rampFits && p.integFits && p.thresholdOk && p.messageOk && p.txBufOk && p.linkLayerOk

end Params

end Sys2Proof
end

