-- ==== Sys2Proof/Machine/State.lean ====
section
/-! DEFINITION. The state of the block: the registers and two buffers that 10_state.md R21 lists (log 16), the response
port, the inputs still to come, the parameter record, and two counters that number the free values. -/

namespace Sys2Proof.Machine

/-- The bytes of a buffer that something has written since the last reset: (index, byte), indices strictly rising. An
index that is not listed holds no written byte (log 11). -/
abbrev Memory := List Host.Cell

/-- The response codes of 30_encoding.md R95; codes 0x5 to 0xF are never produced. -/
inductive Code where
  | ok
  | busy
  | oversize
  | range
  | illegal
  deriving DecidableEq, Repr

/-- One response on `resp_o` (30_encoding.md R95). -/
structure Response where
  code : Code
  data : Word
  deriving DecidableEq, Repr

/-- What the input pins present at one instant (10_state.md R52): a pulse on `rst_i`, a strobe on `tick_i` with the level
of `rx_in_i`, a valid word on `cmd_i`. -/
structure Pins where
  rst  : Bool
  tick : Option Bool
  cmd  : Option Word
  deriving DecidableEq, Repr

/-- One event of a run (00_scope.md R17). -/
inductive Event where
  | reset
  | tick (x : Bool)
  | cmd (w : Word)
  deriving DecidableEq, Repr

/-- The state. Register names are those of 10_state.md R21 in Lean's spelling. -/
structure State where
  /-- The parameter set, fixed for a run (10_state.md R55, log 3). -/
  params     : Params
  rxEnabled  : Bool
  rxActive   : Bool
  rxReady    : Bool
  ramp       : BitVec 16
  integ      : BitVec 8
  lastSample : Bool
  hist       : BitVec 16
  bitCount   : BitVec 8
  bufLen     : BitVec 8
  expLen     : BitVec 8
  rxBuf      : Memory
  txActive   : Bool
  txSample   : BitVec 4
  txBit      : BitVec 4
  txIndex    : BitVec 8
  txLen      : BitVec 8
  txOut      : Bool
  txBuf      : Memory
  /-- `resp_o`; `none` while it is not valid (70_reset_and_hazards.md R261, log 5). -/
  resp       : Option Response
  /-- What the input pins will present, first instant first (log 1). -/
  inputs     : List Pins
  /-- How many resets have happened: numbers the free bytes of the buffers (10_state.md R40, log 6). -/
  resets     : Nat
  /-- How many nibble draws have been taken (30_encoding.md R99, log 7). -/
  draws      : Nat
  deriving DecidableEq, Repr

/-- Why the machine stops. The spec never stops the block; both constructors belong to states that break the invariants
of 10_state.md R53 (log 9). -/
inductive Fault where
  /-- Raised by `TICK`, receive half, about to store at an index outside RXBUF (40_tick_rx.md R139 says it never
  happens). Safe: the machine stops where the spec gives no effect. -/
  | rxBufIndex
  /-- Raised by `TICK`, transmit half, about to select a bit outside TXBUF or outside an entry's eight bits (41_tick_tx.md
  R156, R158 say it never happens). Safe: the machine stops where the spec gives no effect. -/
  | txBufIndex
  deriving DecidableEq, Repr

/-- Why there is no meaning. -/
inductive Refusal where
  /-- Raised by an arm of `exec` whose instruction has no meaning yet; no arm is left. Safe. -/
  | notModelled (mnemonic : String)
  /-- Raised by every operation under a parameter set that is not well-formed (00_scope.md R11: "a model must refuse a
  parameter set that is not well-formed rather than give it a meaning"). Safe. -/
  | illFormedParameters
  deriving DecidableEq, Repr

/-- The block right after reset (10_state.md R21, 70_reset_and_hazards.md R261), with the reference parameter set (log 3),
no input pending (log 1) and both counters of free values at 0 (log 6, log 7). -/
def State.reset : State where
  params := Params.p0
  rxEnabled := false
  rxActive := false
  rxReady := false
  ramp := 0
  integ := 0
  lastSample := false
  hist := 0
  bitCount := 0
  bufLen := 0
  expLen := 0
  rxBuf := []
  txActive := false
  txSample := 0
  txBit := 0
  txIndex := 0
  txLen := 0
  txOut := false
  txBuf := []
  resp := none
  inputs := []
  resets := 0
  draws := 0

end Sys2Proof.Machine
end

