-- ==== Sys2Proof/Machine/Codec.lean ====
section
/-! DEFINITION. The codec (30_encoding.md R97 to R102): `enc4`, its inverse `dec4`, the two symbols of the window,
`decode8`, and the bits of an entry on the wire. A draw is an argument; the step supplies it from Config.freeNibble. -/

namespace Sys2Proof.Machine

/-- The least significant `k` bits of `v` from bit `lo` up, as a byte (`v[lo+k-1:lo]`, 00_scope.md R12). -/
def bitField (v : Word) (lo k : Nat) : Byte := BitVec.ofNat 8 (v.toNat / 2 ^ lo % 2 ^ k)

/-- The position of the first entry equal to `s`. -/
def position (s : Byte) : List Byte → Option Nat
  | [] => none
  | e :: l => if e = s then some 0 else (position s l).map (· + 1)

/-- `enc4(n)`: the symbol of a nibble (30_encoding.md R98). The table of a well-formed set has all sixteen entries. -/
def enc4 (p : Params) (n : Nibble) : Byte := p.enc.getD n.toNat 0

/-- The nibble whose symbol is `s`, or `none` outside the alphabet (30_encoding.md R98, log 8). -/
def nibbleOf (p : Params) (s : Byte) : Option Nibble := (position s p.enc).map (BitVec.ofNat 4)

/-- `dec4(s)`: outside the alphabet the result is the draw (30_encoding.md R99). -/
def dec4 (p : Params) (draw : Nibble) (s : Byte) : Nibble := (nibbleOf p s).getD draw

/-- `h[W-1:0]`, the symbol received first (30_encoding.md R100, 20_memory.md R62). -/
def olderSymbol (p : Params) (h : Word) : Byte := bitField h 0 p.symbolBits

/-- `h[2W-1:W]`, the symbol received second (30_encoding.md R100, 20_memory.md R62). -/
def newerSymbol (p : Params) (h : Word) : Byte := bitField h p.symbolBits p.symbolBits

/-- The byte `{hi, lo}` of two nibbles (00_scope.md R12). -/
def joinNibbles (hi lo : Nibble) : Byte := hi.setWidth 8 <<< 4 ||| lo.setWidth 8

/-- `decode8(h)`: the older symbol gives the high nibble (30_encoding.md R100). `dHi` and `dLo` are the draws of the two
halves. -/
def decode8 (p : Params) (dHi dLo : Nibble) (h : Word) : Byte :=
  joinNibbles (dec4 p dHi (olderSymbol p h)) (dec4 p dLo (newerSymbol p h))

/-- The two buffer entries of a byte, high nibble first (30_encoding.md R102). -/
def symbolPair (p : Params) (b : Byte) : List Byte :=
  [enc4 p (b.extractLsb' 4 4), enc4 p (b.extractLsb' 0 4)]

/-- The bits of one entry in the order they go on the wire: bit 0 first, `W` bits (30_encoding.md R102). -/
def entryBits (p : Params) (e : Byte) : List Bool := (List.range p.symbolBits).map e.getLsbD

end Sys2Proof.Machine
end

