-- ==== Sys2Proof/Machine/Flags.lean ====
section
/-! DEFINITION. The one-bit conditions and computations of the two engines (40_tick_rx.md R121 to R136, 41_tick_tx.md R151
to R155) and the STATUS word of the six flags (10_state.md R47). Sums are taken in Nat (10_state.md R22, log 10). -/

namespace Sys2Proof.Machine

namespace State

/-- The receive half runs: receiver enabled, and not gated by a transmitter that was active at entry to the tick
(40_tick_rx.md R121, 20_memory.md R72). -/
def rxRuns (txActiveAtEntry : Bool) (s : State) : Bool :=
  s.rxEnabled && !(s.params.rxGatedByTx && txActiveAtEntry)

/-- `trans`: the sample differs from the previous one (40_tick_rx.md R122). -/
def isTransition (x : Bool) (s : State) : Bool := x != s.lastSample

/-- `inc`: nominal, retard before the midpoint, advance from the midpoint on (40_tick_rx.md R123). -/
def rampStep (x : Bool) (s : State) : Nat :=
  if s.isTransition x then
    if s.ramp.toNat < s.params.rampTransition then s.params.rampIncRetard else s.params.rampIncAdvance
  else s.params.rampInc

/-- `ramp'` (40_tick_rx.md R123). -/
def rampSum (x : Bool) (s : State) : Nat := s.ramp.toNat + s.rampStep x

/-- `integ'` (40_tick_rx.md R125). -/
def integSum (x : Bool) (s : State) : Nat := s.integ.toNat + x.toNat

/-- The ramp wraps: a bit tick of the receiver (40_tick_rx.md R126). -/
def isBitTick (x : Bool) (s : State) : Bool := s.params.rampMax ≤ s.rampSum x

/-- `b`, the decided bit (40_tick_rx.md R127). -/
def decidedBit (x : Bool) (s : State) : Bool := s.params.integThreshold ≤ s.integSum x

/-- A history register with a decided bit shifted in: one place toward bit 0, the bit entering at `2W-1`, taken at 16 bits
(40_tick_rx.md R127). -/
def shiftIn (p : Params) (h : Word) (b : Bool) : Word :=
  (h >>> 1) ||| ((BitVec.ofBool b).setWidth 16 <<< (2 * p.symbolBits - 1))

/-- The history holds the start symbol and the receiver may take it (40_tick_rx.md R130). -/
def startsFrame (s : State) : Bool :=
  s.hist = s.params.startSymbol && (!s.rxReady || s.params.rxOverrun = .replace)

/-- This bit completes a byte (40_tick_rx.md R131). -/
def completesByte (s : State) : Bool := 2 * s.params.symbolBits ≤ s.bitCount.toNat + 1

/-- A first byte inside `[MESSAGE_MIN, MESSAGE_MAX]` (40_tick_rx.md R133, R134). -/
def lengthOk (p : Params) (d : Byte) : Bool := p.messageMin ≤ d.toNat ∧ d.toNat ≤ p.messageMax

/-- The store makes the frame whole: the new `buf_len` is at least the length (40_tick_rx.md R136). -/
def completesFrame (s : State) : Bool := s.expLen.toNat ≤ s.bufLen.toNat + 1

/-- A bit tick of the transmitter: `tx_sample` is 0 (41_tick_tx.md R152). -/
def isTxBitTick (s : State) : Bool := s.txSample = 0

/-- All symbols are sent (41_tick_tx.md R155). -/
def allSent (s : State) : Bool := s.txLen.toNat ≤ s.txIndex.toNat

/-- The bit to send is the last of its entry (41_tick_tx.md R154). -/
def endsEntry (s : State) : Bool := s.params.symbolBits ≤ s.txBit.toNat + 1

end State

/-- A field with its bit 0 at bit `lo` of a 16-bit word, every other bit 0 (00_scope.md R12, `zext_16` and `<<`). -/
def place {k : Nat} (v : BitVec k) (lo : Nat) : Word := v.setWidth 16 <<< lo

/-- The six flags as the STATUS word, one bit each from bit 0 up, bits 15:6 zero (10_state.md R47). -/
def State.statusWord (s : State) : Word :=
  place (BitVec.ofBool s.rxEnabled) 0 ||| place (BitVec.ofBool s.rxActive) 1 ||| place (BitVec.ofBool s.rxReady) 2 |||
    place (BitVec.ofBool s.txActive) 3 ||| place (BitVec.ofBool s.txOut) 4 ||| place (BitVec.ofBool s.lastSample) 5

end Sys2Proof.Machine
end

