-- ==== Sys2Proof/Machine/Ops.lean ====
section
/-! DEFINITION. The shared operations: reading and writing one byte of a buffer, putting an answer on the response port,
refusing a command, resetting, and ending an operation. The block has no traps (60_exceptions.md R240); what stands in the
place of taking an exception is `State.refuse`: an error response, and nothing else changes (R236). -/

namespace Sys2Proof.Machine

/-- The written byte at an index, if one is listed (00_scope.md R14, `MemRead`). -/
def Memory.read : Memory → Nat → Option Byte
  | [], _ => none
  | c :: m, i => if c.1 = i then some c.2 else Memory.read m i

/-- Store one byte at an index (00_scope.md R14, `MemWrite`), keeping the indices strictly rising. -/
def Memory.write : Memory → Nat → Byte → Memory
  | [], i, v => [(i, v)]
  | c :: m, i, v =>
    if i < c.1 then (i, v) :: c :: m
    else if i = c.1 then (i, v) :: m
    else c :: Memory.write m i v

/-- The canonical form: indices strictly rising. -/
def Memory.wf : Memory → Bool
  | [] => true
  | [_] => true
  | c :: d :: m => decide (c.1 < d.1) && Memory.wf (d :: m)

/-- The number of bytes of a buffer (10_state.md R50). -/
def bufferCap (p : Params) : Buffer → Nat
  | .rx => p.rxBufCap
  | .tx => p.txBufCap

namespace State

/-- The written bytes of a buffer. -/
def memory (s : State) : Buffer → Memory
  | .rx => s.rxBuf
  | .tx => s.txBuf

/-- What byte `i` of a buffer holds: the byte last written there since the last reset, else the free byte it was given at
that reset (10_state.md R40, log 6). -/
def byteAt (s : State) (b : Buffer) (i : Nat) : Byte :=
  (Memory.read (s.memory b) i).getD (Config.freeByte b s.resets i)

/-- End a command with `respond(code, data)` (00_scope.md R15, 30_encoding.md R95). -/
def respond (s : State) (code : Code) (data : Word) : State := { s with resp := some ⟨code, data⟩ }

/-- An error response: `data` 0 and no register and no buffer byte changed (30_encoding.md R95, 60_exceptions.md R236). -/
def refuse (s : State) (code : Code) : State := s.respond code 0

/-- Every register at its reset value, every buffer byte unspecified, the response port not valid (10_state.md R21, R40;
70_reset_and_hazards.md R260, R261). The parameters, the inputs still to come and the count of draws are not the block's
registers; the count of resets moves on, so the unspecified bytes are new ones. -/
def resetRegisters (s : State) : State :=
  { State.reset with params := s.params, inputs := s.inputs, resets := s.resets + 1, draws := s.draws }

/-- The inputs still to come replaced, nothing else (log 1). -/
def withInputs (l : List Pins) (s : State) : State := { s with inputs := l }

end State

/-- The number of a response code (30_encoding.md R95). -/
def Code.number : Code → BitVec 4
  | .ok => 0x0
  | .busy => 0x1
  | .oversize => 0x2
  | .range => 0x3
  | .illegal => 0x4

/-- The output pins (10_state.md R52): `resp_o` as `none` while not valid, else its code and data. -/
structure Outputs where
  txOut   : Bool
  rxReady : Bool
  txBusy  : Bool
  resp    : Option (BitVec 4 × Word)
  deriving DecidableEq, Repr

/-- What the output pins show in a state (10_state.md R52, 60_exceptions.md R235). -/
def State.outputs (s : State) : Outputs where
  txOut := s.txOut
  rxReady := s.rxReady
  txBusy := s.txActive
  resp := s.resp.map fun r => (r.code.number, r.data)

/-- Go on only under a well-formed parameter set (00_scope.md R11). -/
def guarded (s : State) (o : Host.Outcome State Fault Refusal) : Host.Outcome State Fault Refusal :=
  if s.params.wf then o else .refused .illFormedParameters

/-- End an operation that began in state `s` with the state `t`. -/
def complete (s t : State) : Host.Outcome State Fault Refusal := guarded s (.next t)

/-- Carry on from what came next, a state or a result beside it; a stop stays a stop. -/
def andThen {α β : Type} (o : Host.Outcome α Fault Refusal) (k : α → Host.Outcome β Fault Refusal) :
    Host.Outcome β Fault Refusal :=
  match o with
  | .next t => k t
  | .fault r => .fault r
  | .refused r => .refused r

end Sys2Proof.Machine
end

