-- ==== Sys2Proof/Machine/Operands.lean ====
section
/-! DEFINITION. What the one 8-bit operand selects (30_encoding.md R94): a CSR, a byte of RXBUF; and the bit of TXBUF that
the transmit half selects by its indices (41_tick_tx.md R156). -/

namespace Sys2Proof.Machine.State

/-- CSR `n`, `none` from 8 up (10_state.md R46 to R48). -/
def csr (s : State) (n : Byte) : Option Word :=
  match n.toNat with
  | 0 => some s.statusWord
  | 1 => some s.ramp
  | 2 => some (place s.integ 0)
  | 3 => some s.hist
  | 4 => some (place s.bitCount 0)
  | 5 => some (place s.bufLen 0 ||| place s.expLen 8)
  | 6 => some (place s.txIndex 0 ||| place s.txBit 8 ||| place s.txSample 12)
  | 7 => some (place s.txLen 0)
  | _ => none

/-- Byte `i` of RXBUF widened to the response, `none` from `RX_BUF_CAP` up (42_host_rx_commands.md R173). -/
def rxByte (s : State) (i : Byte) : Option Word :=
  if i.toNat < s.params.rxBufCap then some (place (s.byteAt .rx i.toNat) 0) else none

/-- `tx_buf[tx_index][tx_bit]`, `none` outside the buffer or the entry (41_tick_tx.md R153, R156, R158). -/
def txSelectedBit (s : State) : Option Bool :=
  if s.txIndex.toNat < s.params.txBufCap ∧ s.txBit.toNat < 8 then
    some ((s.byteAt .tx s.txIndex.toNat).getLsbD s.txBit.toNat)
  else none

end Sys2Proof.Machine.State
end

