-- ==== Sys2Proof/Machine/Receiver.lean ====
section
/-! DEFINITION. The host commands for the receiver (42_host_rx_commands.md). -/

namespace Sys2Proof.Machine

/-- The receive group in its reset state but enabled, `rx_buf` kept (R170). -/
def State.enableRx (s : State) : State :=
  { s with
    rxEnabled := true, rxActive := false, rxReady := false, ramp := 0, integ := 0, lastSample := false, hist := 0,
    bitCount := 0, bufLen := 0, expLen := 0 }

/-- The receiver off, a frame that is ready kept (R171). -/
def State.disableRx (s : State) : State := { s with rxEnabled := false, rxActive := false, bitCount := 0 }

/-- `rx_ready` cleared (R172). -/
def State.clearReady (s : State) : State := { s with rxReady := false }

/-- `RX_ENABLE` (R170). -/
def execRxEnable (s : State) : Host.Outcome State Fault Refusal := complete s (s.enableRx.respond .ok 0)

/-- `RX_DISABLE` (R171). -/
def execRxDisable (s : State) : Host.Outcome State Fault Refusal := complete s (s.disableRx.respond .ok 0)

/-- `RX_CLEAR` (R172). -/
def execRxClear (s : State) : Host.Outcome State Fault Refusal := complete s (s.clearReady.respond .ok 0)

/-- `RX_READ i` (R173). -/
def execRxRead (i : Byte) (s : State) : Host.Outcome State Fault Refusal :=
  match s.rxByte i with
  | some v => complete s (s.respond .ok v)
  | none => complete s (s.refuse .range)

end Sys2Proof.Machine
end

