-- ==== Sys2Proof/Machine/System.lean ====
section
/-! DEFINITION. The system commands (44_host_system_commands.md). -/

namespace Sys2Proof.Machine

/-- `NOP` (R190). -/
def execNop (s : State) : Host.Outcome State Fault Refusal := complete s (s.respond .ok 0)

/-- `RESET` (R193): the effect of the pin, and an answer. -/
def execReset (s : State) : Host.Outcome State Fault Refusal := complete s (s.resetRegisters.respond .ok 0)

/-- `CSR_RD n` (R192). -/
def execCsrRd (n : Byte) (s : State) : Host.Outcome State Fault Refusal :=
  match s.csr n with
  | some v => complete s (s.respond .ok v)
  | none => complete s (s.refuse .range)

end Sys2Proof.Machine
end

