-- ==== Sys2Proof/Machine/Tick.lean ====
section
/-! DEFINITION. `TICK x`: the transmit half (41_tick_tx.md R150), then the receive half (40_tick_rx.md R120), in the order
of 20_memory.md R72. -/

namespace Sys2Proof.Machine

namespace State

/-- `(tx_sample + 1) mod OVERSAMPLING` put in `tx_sample` (41_tick_tx.md R152). -/
def countTxSample (s : State) : State :=
  { s with txSample := BitVec.ofNat 4 ((s.txSample.toNat + 1) % s.params.oversampling) }

/-- The transmission is over (41_tick_tx.md R155). -/
def finishTx (s : State) : State := { s with txOut := false, txActive := false, txSample := 0 }

/-- A bit put on the pin and the indices moved on (41_tick_tx.md R153, R154). -/
def sendBit (b : Bool) (s : State) : State :=
  { s with
    txOut := b, txBit := if s.endsEntry then 0 else s.txBit + 1,
    txIndex := if s.endsEntry then s.txIndex + 1 else s.txIndex }

/-- What every tick of a running receiver that is not a bit tick does (40_tick_rx.md R124 to R126). -/
def advancePhase (x : Bool) (s : State) : State :=
  { s with lastSample := x, ramp := BitVec.ofNat 16 (s.rampSum x), integ := BitVec.ofNat 8 (s.integSum x) }

/-- What every bit tick does first: decide, shift, dump (40_tick_rx.md R124, R127, R128). -/
def shiftBit (x : Bool) (s : State) : State :=
  { s with
    lastSample := x, ramp := BitVec.ofNat 16 (s.rampSum x - s.params.rampMax), integ := 0,
    hist := shiftIn s.params s.hist (s.decidedBit x) }

/-- The start symbol taken: a frame is open (40_tick_rx.md R130). -/
def openFrame (s : State) : State :=
  { s with rxActive := true, rxReady := false, bitCount := 0, bufLen := 0, expLen := 0 }

/-- A bit of a frame counted (40_tick_rx.md R131). -/
def countBit (s : State) : State := { s with bitCount := s.bitCount + 1 }

/-- A byte of a frame is whole: the bit count starts again, and two draws are taken (40_tick_rx.md R131, R132; log 7). -/
def takeByte (s : State) : State := { s with bitCount := 0, draws := s.draws + 2 }

/-- The length byte noted, good or bad (40_tick_rx.md R133). -/
def noteLength (d : Byte) (s : State) : State := { s with expLen := d }

/-- The frame abandoned (40_tick_rx.md R134). -/
def abandonFrame (s : State) : State := { s with rxActive := false }

/-- A byte stored at `buf_len`, and the frame ended if it is whole (40_tick_rx.md R135, R136). -/
def storeByte (d : Byte) (s : State) : State :=
  { s with
    rxBuf := Memory.write s.rxBuf s.bufLen.toNat d, bufLen := s.bufLen + 1,
    rxActive := s.rxActive && !s.completesFrame, rxReady := s.rxReady || s.completesFrame }

end State

/-- The transmit half (41_tick_tx.md R150). -/
def txHalf (s : State) : Host.Outcome State Fault Refusal :=
  if !s.txActive then .next s
  else if !s.isTxBitTick then .next s.countTxSample
  else if s.allSent then .next s.finishTx
  else match s.txSelectedBit with
    | some b => .next (s.sendBit b).countTxSample
    | none => .fault .txBufIndex

/-- A bit tick without a frame open: look for the start symbol (40_tick_rx.md R129, R130). `s.hist` is `hist'`. -/
def scanBit (s : State) : State := if s.startsFrame then s.openFrame else s

/-- A byte stored at `buf_len`, if that is inside the buffer (40_tick_rx.md R135, R136, R139). -/
def storeOrStop (d : Byte) (s : State) : Host.Outcome State Fault Refusal :=
  if s.bufLen.toNat < s.params.rxBufCap then .next (s.storeByte d) else .fault .rxBufIndex

/-- A decoded byte: a first byte is the length and is checked before it is stored (40_tick_rx.md R133 to R136). -/
def receiveByte (d : Byte) (s : State) : Host.Outcome State Fault Refusal :=
  if s.bufLen = 0 then
    if State.lengthOk s.params d then storeOrStop d (s.noteLength d) else .next (s.noteLength d).abandonFrame
  else storeOrStop d s

/-- What a bit tick does after the shift (40_tick_rx.md R129 to R136). `s.hist` is `hist'`; `dHi` and `dLo` are the draws
of the two halves of the window (30_encoding.md R99). -/
def receiveBit (dHi dLo : Nibble) (s : State) : Host.Outcome State Fault Refusal :=
  if !s.rxActive then .next (scanBit s)
  else if !s.completesByte then .next s.countBit
  else receiveByte (decode8 s.params dHi dLo s.hist) s.takeByte

/-- The receive half (40_tick_rx.md R120). -/
def rxHalf (txActiveAtEntry x : Bool) (dHi dLo : Nibble) (s : State) : Host.Outcome State Fault Refusal :=
  if !s.rxRuns txActiveAtEntry then .next s
  else if !s.isBitTick x then .next (s.advancePhase x)
  else receiveBit dHi dLo (s.shiftBit x)

/-- `TICK x` (40_tick_rx.md R120, 41_tick_tx.md R150). The gate of the receive half is `tx_active` at entry
(20_memory.md R72); the draws are the next two of the run (30_encoding.md R99). -/
def execTick (x : Bool) (s : State) : Host.Outcome State Fault Refusal :=
  guarded s (andThen (txHalf s)
    (rxHalf s.txActive x (Config.freeNibble s.draws) (Config.freeNibble (s.draws + 1))))

end Sys2Proof.Machine
end

