-- ==== Sys2Proof/Machine/Transmitter.lean ====
section
/-! DEFINITION. The host commands for the transmitter (43_host_tx_commands.md). `BUSY` is tested before `OVERSIZE`
(60_exceptions.md R238). -/

namespace Sys2Proof.Machine

/-- The symbol buffer emptied: `tx_len` and `tx_index` 0, the bytes kept (R180). -/
def State.emptyTx (s : State) : State := { s with txLen := 0, txIndex := 0 }

/-- An entry appended at `tx_len` (R181). -/
def State.appendTx (e : Byte) (s : State) : State :=
  { s with txBuf := Memory.write s.txBuf s.txLen.toNat e, txLen := s.txLen + 1 }

/-- A transmission begun (R182). -/
def State.startTx (s : State) : State := { s with txActive := true, txSample := 0, txBit := 0, txIndex := 0 }

/-- `TX_CLEAR` (R180). -/
def execTxClear (s : State) : Host.Outcome State Fault Refusal :=
  if s.txActive then complete s (s.refuse .busy) else complete s (s.emptyTx.respond .ok 0)

/-- `TX_PUSH e` (R181). -/
def execTxPush (e : Byte) (s : State) : Host.Outcome State Fault Refusal :=
  if s.txActive then complete s (s.refuse .busy)
  else if s.params.txBufCap ≤ s.txLen.toNat then complete s (s.refuse .oversize)
  else complete s ((s.appendTx e).respond .ok 0)

/-- `TX_START` (R182). -/
def execTxStart (s : State) : Host.Outcome State Fault Refusal :=
  if s.txActive then complete s (s.refuse .busy) else complete s (s.startTx.respond .ok 0)

end Sys2Proof.Machine
end

