-- ==== Sys2Proof/Machine/Dispatch.lean ====
section
/-! DEFINITION. One arm per operation. -/

namespace Sys2Proof.Machine

def exec (i : Instr) (s : State) : Host.Outcome State Fault Refusal :=
  match i with
  | .nop => Sys2Proof.Machine.execNop s
  | .reset => Sys2Proof.Machine.execReset s
  | .csrRd n => Sys2Proof.Machine.execCsrRd n s
  | .rxEnable => Sys2Proof.Machine.execRxEnable s
  | .rxDisable => Sys2Proof.Machine.execRxDisable s
  | .rxClear => Sys2Proof.Machine.execRxClear s
  | .rxRead k => Sys2Proof.Machine.execRxRead k s
  | .txClear => Sys2Proof.Machine.execTxClear s
  | .txPush e => Sys2Proof.Machine.execTxPush e s
  | .txStart => Sys2Proof.Machine.execTxStart s
  | .tick x => Sys2Proof.Machine.execTick x s

end Sys2Proof.Machine
end

