-- ==== Sys2Proof/Machine/Events.lean ====
section
/-! DEFINITION. From the pins to operations: which event of an instant comes first (60_exceptions.md R237), what each kind
of event does (00_scope.md R17), and how a written word is presented (30_encoding.md R91, R105). -/

namespace Sys2Proof.Machine

/-- The pins of one instant with a tick only. -/
def tickPins (x : Bool) : Pins := ⟨false, some x, none⟩

/-- The pins of one instant with a command word only. -/
def cmdPins (w : Word) : Pins := ⟨false, none, some w⟩

/-- The pins of one instant with a reset pulse only. -/
def resetPins : Pins := ⟨true, none, none⟩

/-- The first event of an instant, and what the instant still holds: `Reset` beats a tick and a command, which are lost;
a tick goes before a command (60_exceptions.md R237, 20_memory.md R71). -/
def firstEvent (p : Pins) : Option Event × List Pins :=
  if p.rst then (some .reset, []) else
  match p.tick, p.cmd with
  | some x, none => (some (.tick x), [])
  | some x, some w => (some (.tick x), [cmdPins w])
  | none, some w => (some (.cmd w), [])
  | none, none => (none, [])

/-- A word on `cmd_i`: one of the ten commands, or `ILLEGAL` and no change (30_encoding.md R96). -/
def runCommand (w : Word) (s : State) : Host.Outcome State Fault Refusal :=
  match decodeCommand w with
  | .ok i => exec i s
  | .error _ => complete s (s.refuse .illegal)

/-- One event (00_scope.md R17). The `Reset` event answers nothing (70_reset_and_hazards.md R260). -/
def runEvent (e : Event) (s : State) : Host.Outcome State Fault Refusal :=
  match e with
  | .reset => complete s s.resetRegisters
  | .tick x => exec (.tick x) s
  | .cmd w => runCommand w s

/-- Carry out the first event of an instant, if it holds one, with what is left of the instant put back before `rest`. -/
def runInstant (p : Pins) (rest : List Pins) (s : State) : Host.Outcome State Fault Refusal :=
  match (firstEvent p).1 with
  | some e => runEvent e (s.withInputs ((firstEvent p).2 ++ rest))
  | none => complete s (s.withInputs ((firstEvent p).2 ++ rest))

/-- Take the next event from the inputs and carry it out; with no event nothing changes (60_exceptions.md R250, log 2). -/
def takeEvent (s : State) : Host.Outcome State Fault Refusal :=
  match s.inputs with
  | [] => complete s s
  | p :: rest => runInstant p rest s

/-- How a word of a written run is presented: a `TICK` word as a strobe with its sample, any other word on `cmd_i`
(30_encoding.md R91, R105; log 1). -/
def wordPins (w : Word) : Pins :=
  match decodeRunWord w with
  | .ok (.tick x) => tickPins x
  | _ => cmdPins w

end Sys2Proof.Machine
end

