-- ==== Sys2Proof/Machine/Step.lean ====
section
/-! DEFINITION. One step: one event, one atomic operation (20_memory.md R70). -/

namespace Sys2Proof.Machine

/-- One step of the block. -/
def step (s : State) : Host.Outcome State Fault Refusal := takeEvent s

/-- The state with the operation of an opcode-table row's word presented next (log 1). -/
def State.withFetchWord (s : State) (nbits w : Nat) : State :=
  s.withInputs (wordPins (BitVec.ofNat 16 (w % 2 ^ nbits)) :: s.inputs)

end Sys2Proof.Machine
end

