-- ==== Sys2Proof/Machine/LinkLayer.lean ====
section
/-! DEFINITION. The host side: the pure functions of the link-layer contract (46_link_layer_contract.md) and the
pseudo-operations of 30_encoding.md R106. None of this is state or behaviour of the block; what the spec leaves to the
host (addresses, BROADCAST, the timer and its rounding) is an argument (log 15). -/

namespace Sys2Proof.Machine

/-- One of the eight shifts of `CRC16` (46_link_layer_contract.md R204). -/
def crcShift (c : Word) : Word := if c.getLsbD 0 then (c >>> 1) ^^^ 0x8408 else c >>> 1

/-- `CRC16` over one byte (46_link_layer_contract.md R204). -/
def crcByte (c : Word) (b : Byte) : Word :=
  crcShift (crcShift (crcShift (crcShift (crcShift (crcShift (crcShift (crcShift (c ^^^ b.setWidth 16))))))))

/-- `CRC16` (46_link_layer_contract.md R204). -/
def crc16 (bytes : List Byte) : Word := bytes.foldl crcByte 0xFFFF

/-- The residue of a whole frame (46_link_layer_contract.md R204, R206). -/
def crcResidue : Word := 0xF0B8

/-- The header of a frame (46_link_layer_contract.md R201). -/
structure Header where
  network : Word
  dest    : Byte
  src     : Byte
  port    : Byte
  deriving DecidableEq, Repr

/-- The low byte of a 16-bit field, then its high byte (20_memory.md R61). -/
def lowFirst (w : Word) : List Byte := [w.extractLsb' 0 8, w.extractLsb' 8 8]

/-- Length byte, header and payload (46_link_layer_contract.md R202). DESIGN CHOICE: a length that a byte cannot hold is cut to
its low eight bits (log 19). -/
def frameBody (h : Header) (payload : List Byte) : List Byte :=
  [BitVec.ofNat 8 (1 + 5 + payload.length + 2)] ++ lowFirst h.network ++ [h.dest, h.src, h.port] ++ payload

/-- A whole frame: the body and the ones' complement of its checksum, low byte first (46_link_layer_contract.md R202). -/
def buildFrame (h : Header) (payload : List Byte) : List Byte :=
  frameBody h payload ++ lowFirst (crc16 (frameBody h payload) ^^^ 0xFFFF)

/-- The symbols of a list of bytes, two a byte, high nibble first (30_encoding.md R102). -/
def symbolsOf (p : Params) (bytes : List Byte) : List Byte := bytes.flatMap (symbolPair p)

/-- The symbol buffer of a frame: the preamble, then two symbols a byte (46_link_layer_contract.md R203). -/
def expandFrame (p : Params) (frame : List Byte) : List Byte := p.preamble ++ symbolsOf p frame

/-- What `recv` makes of the bytes it drained (46_link_layer_contract.md R206, R207). -/
inductive Received where
  | checksumMismatch
  | otherAddress
  | message (src port : Byte) (payload : List Byte)
  deriving DecidableEq, Repr

/-- The address filter: the network, and the device or BROADCAST (46_link_layer_contract.md R207). -/
def addressMatches (network : Word) (device broadcast : Byte) (r : List Byte) : Bool :=
  (place (r.getD 2 0) 8 ||| place (r.getD 1 0) 0 == network) && (r.getD 3 0 == device || r.getD 3 0 == broadcast)

/-- The checks of `recv` on the drained bytes, checksum first (46_link_layer_contract.md R206). DESIGN CHOICE: in
a frame of fewer than eight bytes, which only a set with `MESSAGE_MIN` below 8 lets through, a byte that is not there reads
as 0 (log 4). -/
def checkFrame (network : Word) (device broadcast : Byte) (r : List Byte) : Received :=
  if crc16 r ≠ crcResidue then .checksumMismatch
  else if !addressMatches network device broadcast r then .otherAddress
  else .message (r.getD 4 0) (r.getD 5 0) ((r.take (r.length - 2)).drop 6)

/-- `TICKS x, n` (30_encoding.md R106). -/
def ticksOps (x : Bool) (n : Nat) : List Instr := List.replicate n (.tick x)

/-- `TICKS_BITS` (30_encoding.md R106). -/
def ticksBitsOps (bits : List Bool) : List Instr := bits.flatMap fun b => ticksOps b 8

/-- `LOAD` (30_encoding.md R106). -/
def loadOps (entries : List Byte) : List Instr := .txClear :: entries.map .txPush

/-- `SEND_SYMS` (30_encoding.md R106). -/
def sendSymsOps (entries : List Byte) : List Instr := loadOps entries ++ [.txStart]

/-- `SEND_BYTES` (30_encoding.md R106). -/
def sendBytesOps (p : Params) (bytes : List Byte) : List Instr := sendSymsOps (expandFrame p bytes)

/-- `DRAIN`, for the length `len` that its first command answered in `data[7:0]` (30_encoding.md R106). -/
def drainOps (len : Byte) : List Instr :=
  .csrRd 5 :: (List.range len.toNat).map (fun i => Instr.rxRead (BitVec.ofNat 8 i)) ++ [.rxClear]

/-- `WAIT_RX` polls CSR 0 until this holds of the data (30_encoding.md R106); it is the source's `available()`
(42_host_rx_commands.md R174). -/
def rxWaitOver (status : Word) : Bool := status.getLsbD 2

/-- `WAIT_TX` polls CSR 0 until this holds of the data (30_encoding.md R106). -/
def txWaitOver (status : Word) : Bool := !status.getLsbD 3

/-- What `send` comes to (43_host_tx_commands.md R183). -/
inductive Sending where
  | oversizePayload
  | busy
  | commands (ops : List Instr)
  deriving DecidableEq, Repr

/-- `send`: too long, busy by the STATUS it read, or the commands it issues (43_host_tx_commands.md R183). -/
def sendMessage (p : Params) (status : Word) (h : Header) (payload : List Byte) : Sending :=
  if p.payloadMax < payload.length then .oversizePayload
  else if !txWaitOver status then .busy
  else .commands (sendBytesOps p (buildFrame h payload))

/-- The commands of `begin`: `RX_ENABLE` if the link has a receiver (46_link_layer_contract.md R208). -/
def beginOps (receives : Bool) : List Instr := if receives then [.rxEnable] else []

/-- The commands of `end` once `WAIT_TX` is over (46_link_layer_contract.md R208). -/
def endOps : List Instr := [.rxDisable]

/-- What the Timing Configurator programs: a prescaler and a reload value (46_link_layer_contract.md R209). -/
structure TimerSetting where
  prescaler : Nat
  reload    : Nat
  deriving DecidableEq, Repr

/-- The hardware timer that makes the tick: the clock of its counter, its table of prescalers, the width of its counter.
The spec gives none of them (46_link_layer_contract.md R209, 93_implementation_defined.md U29; log 15). -/
structure Timer where
  clock       : Nat
  prescalers  : List Nat
  counterBits : Nat
  deriving DecidableEq, Repr

/-- The greatest value of the counter (46_link_layer_contract.md R209). -/
def Timer.counterMax (hw : Timer) : Nat := 2 ^ hw.counterBits - 1

/-- What a prescaler divides the clock by to come to the tick rate: `prescaler * (bit_rate * OVERSAMPLING)`
(46_link_layer_contract.md R209). -/
def tickDivisor (oversampling bitRate prescaler : Nat) : Nat := prescaler * (bitRate * oversampling)

/-- The reload value of a prescaler, `counter_clock / prescaler / (bit_rate * OVERSAMPLING)`
(46_link_layer_contract.md R209). `round n d` is the open rounding of `n / d`, made once; a quotient by 0 fits no counter
and is no candidate (log 15, log 17). -/
def timerCandidate (round : Nat → Nat → Nat) (hw : Timer) (oversampling bitRate prescaler : Nat) :
    Option TimerSetting :=
  if tickDivisor oversampling bitRate prescaler = 0 then none
  else some ⟨prescaler, round hw.clock (tickDivisor oversampling bitRate prescaler)⟩

/-- The candidates, from the largest prescaler to the smallest (46_link_layer_contract.md R209). -/
def timerCandidates (round : Nat → Nat → Nat) (hw : Timer) (oversampling bitRate : Nat) : List TimerSetting :=
  (hw.prescalers.insertionSort (· ≥ ·)).filterMap (timerCandidate round hw oversampling bitRate)

/-- A reload value the counter can hold; 0 counts nothing and is not valid (46_link_layer_contract.md R209, log 17). -/
def reloadFits (counterMax : Nat) (c : TimerSetting) : Bool := 1 ≤ c.reload ∧ c.reload ≤ counterMax

/-- The running maximum of the candidates whose reload value fits the counter (46_link_layer_contract.md R209,
90_conflicts.md C6); `none` is `ConfigurationUnsupported`. The spec leaves open which of two equal reload values is taken:
R209 says the smallest prescaler that fits, C6 that a candidate must beat the last one. DESIGN CHOICE (log 17): the later
one in the list, which in `timerCandidates` is the smaller prescaler. -/
def chooseSetting (counterMax : Nat) : List TimerSetting → Option TimerSetting
  | [] => none
  | c :: l =>
    match chooseSetting counterMax l with
    | none => if reloadFits counterMax c then some c else none
    | some b => if reloadFits counterMax c ∧ b.reload < c.reload then some c else some b

/-- The Timing Configurator: bit rate and oversampling factor in, prescaler and reload value out
(46_link_layer_contract.md R209). -/
def configureTimer (round : Nat → Nat → Nat) (hw : Timer) (oversampling bitRate : Nat) : Option TimerSetting :=
  chooseSetting hw.counterMax (timerCandidates round hw oversampling bitRate)

/-- One bit of one byte flipped (46_link_layer_contract.md R212, checksum sensitivity). -/
def flipBit (bytes : List Byte) (i j : Nat) : List Byte := bytes.modify i (· ^^^ (1 : Byte) <<< j)

end Sys2Proof.Machine
end

