-- ==== Sys2Proof/Machine/Runs.lean ====
section
/-! DEFINITION. Runs: of steps, of events (00_scope.md R17), of ticks, of operations, of operations with ticks placed among
them (20_memory.md R70), and of two blocks of which the first drives the second's input pin (95_test_vectors.md section 3,
"wired"; 60_exceptions.md R248). -/

namespace Sys2Proof.Machine

/-- `k` steps of the block. -/
def runSteps : Nat → State → Host.Outcome State Fault Refusal
  | 0, s => .next s
  | k + 1, s => andThen (step s) (runSteps k)

/-- A run of events in order (00_scope.md R17). -/
def runEvents : List Event → State → Host.Outcome State Fault Refusal
  | [], s => .next s
  | e :: es, s => andThen (runEvent e s) (runEvents es)

/-- A run of ticks with the given samples, no command between them. -/
def runTicks : List Bool → State → Host.Outcome State Fault Refusal
  | [], s => .next s
  | x :: xs, s => andThen (exec (.tick x) s) (runTicks xs)

/-- A run of operations in order. -/
def runOps : List Instr → State → Host.Outcome State Fault Refusal
  | [], s => .next s
  | i :: is, s => andThen (exec i s) (runOps is)

/-- One command after the ticks that fall before it: the host cannot hold off a tick (20_memory.md R70, R73). -/
def issue (ticks : List Bool) (i : Instr) (s : State) : Host.Outcome State Fault Refusal :=
  andThen (runTicks ticks s) (exec i)

/-- Commands in order with any placement of ticks among them (20_memory.md R70): the samples of the ticks that fall before
each command in turn, none where the list of gaps has ended. -/
def runSpaced : List Instr → List (List Bool) → State → Host.Outcome State Fault Refusal
  | [], _, s => .next s
  | i :: is, gaps, s => andThen (issue (gaps.headD []) i s) (runSpaced is gaps.tail)

/-- One tick of two wired blocks: the second samples the pin the first leaves; the first samples `x`. -/
def wiredTick (x : Bool) (ab : State × State) : Host.Outcome (State × State) Fault Refusal :=
  andThen (exec (.tick x) ab.1) fun a => andThen (exec (.tick a.txOut) ab.2) fun b => .next (a, b)

/-- A run of ticks of two wired blocks, with the samples that the first block's own receiver sees. -/
def wiredTicks : List Bool → State × State → Host.Outcome (State × State) Fault Refusal
  | [], ab => .next ab
  | x :: xs, ab => andThen (wiredTick x ab) (wiredTicks xs)

/-- Commands to the first of two wired blocks with any placement of wired ticks among them. -/
def wiredSpaced : List Instr → List (List Bool) → State × State → Host.Outcome (State × State) Fault Refusal
  | [], _, ab => .next ab
  | i :: is, gaps, ab =>
    andThen (wiredTicks (gaps.headD []) ab) fun cd =>
      andThen (exec i cd.1) fun a => wiredSpaced is gaps.tail (a, cd.2)

end Sys2Proof.Machine
end

