-- ==== Sys2Proof/Machine/Driver.lean ====
section
/-! DEFINITION. The host's driver carried out on the block: `WAIT_RX`, `WAIT_TX`, `DRAIN`, `recv`, `send` (30_encoding.md
R106, 42_host_rx_commands.md R174, 43_host_tx_commands.md R183) and `begin`, `end`, `powerup`, `powerdown`
(46_link_layer_contract.md R208). Where ticks fall among the host's commands is not the host's to say (20_memory.md R70, R73;
70_reset_and_hazards.md R272), so every operation takes the samples of the ticks that fall before each of its commands as an
argument, `gaps`, and a claim quantifies over it; a gap the list does not name holds no tick. Where the list of a wait ends
the host stops waiting (log 18). Nothing here is state or behaviour of the block (log 15). -/

namespace Sys2Proof.Machine

/-- The data of the response that stands, which a command has just put there (30_encoding.md R95). -/
def State.answerData (s : State) : Word := (s.resp.map Response.data).getD 0

/-- `WAIT_RX` and `WAIT_TX`: `CSR_RD 0` repeated, with ticks in between, until `ready` holds of its data (30_encoding.md
R106). `true` if it came to hold, `false` if the host stopped waiting. -/
def waitFor (ready : Word → Bool) : List (List Bool) → State → Host.Outcome (Bool × State) Fault Refusal
  | [], s => andThen (exec (.csrRd 0) s) fun t => .next (ready t.answerData, t)
  | xs :: more, s =>
    andThen (exec (.csrRd 0) s) fun t =>
      if ready t.answerData then .next (true, t) else andThen (runTicks xs t) (waitFor ready more)

/-- `WAIT_RX` (30_encoding.md R106). -/
def waitRx : List (List Bool) → State → Host.Outcome (Bool × State) Fault Refusal := waitFor rxWaitOver

/-- `WAIT_TX` (30_encoding.md R106). -/
def waitTx : List (List Bool) → State → Host.Outcome (Bool × State) Fault Refusal := waitFor txWaitOver

/-- `RX_READ` of each index, the bytes taken from the answers (30_encoding.md R106). -/
def readBytes : List Nat → List (List Bool) → State → Host.Outcome (List Byte × State) Fault Refusal
  | [], _, s => .next ([], s)
  | i :: is, gaps, s =>
    andThen (issue (gaps.headD []) (.rxRead (BitVec.ofNat 8 i)) s) fun t =>
      andThen (readBytes is gaps.tail t) fun r => .next (t.answerData.extractLsb' 0 8 :: r.1, r.2)

/-- `DRAIN`: the length from `CSR_RD 5`, that many bytes, then `RX_CLEAR` (30_encoding.md R106). Ticks may fall before each
of its commands; under `HOLD` they leave the frame whole, under `REPLACE` they may tear it (20_memory.md R74;
70_reset_and_hazards.md R270, R272). -/
def drain (gaps : List (List Bool)) (s : State) : Host.Outcome (List Byte × State) Fault Refusal :=
  andThen (issue (gaps.headD []) (.csrRd 5) s) fun t =>
    andThen (readBytes (List.range (t.answerData.extractLsb' 0 8).toNat) gaps.tail t) fun r =>
      andThen (issue (gaps.getD (r.1.length + 1) []) .rxClear r.2) fun u => .next (r.1, u)

/-- What `recv` comes to (60_exceptions.md R232, 46_link_layer_contract.md R206). -/
inductive Recv where
  | timeout
  | checksumMismatch
  | message (src port : Byte) (payload : List Byte)
  deriving DecidableEq, Repr

/-- One more poll of a waiting `recv`: the ticks before it, and those before each command of the `DRAIN` it may start. -/
structure Round where
  before : List Bool
  during : List (List Bool)
  deriving DecidableEq, Repr

/-- One poll of `recv`: `none` while its wait goes on. With a frame ready it is `DRAIN`, with the ticks `during` among its
commands, and the checks; a frame for another address is discarded (46_link_layer_contract.md R206, R207). -/
def recvPoll (network : Word) (device broadcast : Byte) (during : List (List Bool)) (s : State) :
    Host.Outcome (Option Recv × State) Fault Refusal :=
  andThen (exec (.csrRd 0) s) fun t =>
    if rxWaitOver t.answerData then
      andThen (drain during t) fun r =>
        match checkFrame network device broadcast r.1 with
        | .checksumMismatch => .next (some .checksumMismatch, r.2)
        | .otherAddress => .next (none, r.2)
        | .message src port payload => .next (some (.message src port payload), r.2)
    else .next (none, t)

/-- `recv`: `WAIT_RX` with a timeout, `DRAIN`, the checks; a frame for another address is discarded and the wait goes on
(30_encoding.md R106, 42_host_rx_commands.md R174, 46_link_layer_contract.md R206, R207). Its first poll may drain with the
ticks of the first argument list; each round is one poll more, and with none left it times out. -/
def recv (network : Word) (device broadcast : Byte) : List (List Bool) → List Round → State →
    Host.Outcome (Recv × State) Fault Refusal
  | during, [], s => andThen (recvPoll network device broadcast during s) fun r => .next (r.1.getD .timeout, r.2)
  | during, next :: more, s =>
    andThen (recvPoll network device broadcast during s) fun r =>
      match r.1 with
      | some result => .next (result, r.2)
      | none => andThen (runTicks next.before r.2) (recv network device broadcast next.during more)

/-- What `send` returns (43_host_tx_commands.md R183). The success value carries no number: the API returns a `usize`
(46_link_layer_contract.md R210) and the spec nowhere says what it counts. DESIGN CHOICE (log 20). -/
inductive Sent where
  | oversizePayload
  | busy
  | sent
  deriving DecidableEq, Repr

/-- `send`: a payload too long touches nothing; otherwise `STATUS` is read and the commands are issued unless it shows a
transmission (43_host_tx_commands.md R183). Ticks may fall before each command; they cannot start a transmission
(70_reset_and_hazards.md R272). DESIGN CHOICE: it does not look at the answers of the commands, so where the symbol buffer is
too short for a frame (`HEADER_SIZE` below 5, or the link layer not in use) it sends what was accepted (log 19); and it does
not ask whether the link layer is in use (log 4). -/
def send (gaps : List (List Bool)) (h : Header) (payload : List Byte) (s : State) :
    Host.Outcome (Sent × State) Fault Refusal :=
  if s.params.payloadMax < payload.length then .next (.oversizePayload, s) else
  andThen (issue (gaps.headD []) (.csrRd 0) s) fun t =>
    match sendMessage s.params t.answerData h payload with
    | .oversizePayload => .next (.oversizePayload, t)
    | .busy => .next (.busy, t)
    | .commands ops => andThen (runSpaced ops gaps.tail t) fun u => .next (.sent, u)

/-- The driver of one link (46_link_layer_contract.md R200, R208): its block, whether the link receives, the setting of the
tick source, and whether the tick source runs. -/
structure Driver where
  block    : State
  receives : Bool
  setting  : Option TimerSetting
  ticking  : Bool
  deriving DecidableEq, Repr

namespace Driver

/-- The ticks of a gap: none while the tick source is stopped (60_exceptions.md R250). -/
def strobes (d : Driver) (xs : List Bool) : List Bool := if d.ticking then xs else []

/-- What the strobes of some ticks do: with the tick source stopped there are none (60_exceptions.md R250). -/
def offerTicks (xs : List Bool) (d : Driver) : Host.Outcome Driver Fault Refusal :=
  andThen (runTicks (d.strobes xs) d.block) fun t => .next { d with block := t }

/-- `begin(bit_rate)`: `false` is `ConfigurationUnsupported`, and then nothing is programmed and no command issued
(46_link_layer_contract.md R208, R209; 70_reset_and_hazards.md R264). `ticks` fall between the start of the tick source and
`RX_ENABLE` (log 18). -/
def start (round : Nat → Nat → Nat) (hw : Timer) (bitRate : Nat) (ticks : List Bool) (d : Driver) :
    Host.Outcome (Bool × Driver) Fault Refusal :=
  match configureTimer round hw d.block.params.oversampling bitRate with
  | none => .next (false, d)
  | some c =>
    andThen (runSpaced (beginOps d.receives) [ticks] d.block) fun t =>
      .next (true, { d with block := t, setting := some c, ticking := true })

/-- `end()`: `WAIT_TX`, `RX_DISABLE`, then the tick source is stopped (46_link_layer_contract.md R208), with ticks between the
polls, `before` `RX_DISABLE` and `after` it. `false` while the transmission is not over at the end of the gaps, and then
nothing is stopped (log 18). -/
def stop (gaps : List (List Bool)) (before after : List Bool) (d : Driver) :
    Host.Outcome (Bool × Driver) Fault Refusal :=
  andThen (waitTx (gaps.map d.strobes) d.block) fun r =>
    if r.1 then
      andThen (runSpaced endOps [d.strobes before] r.2) fun t =>
        andThen (runTicks (d.strobes after) t) fun u => .next (true, { d with block := u, ticking := false })
    else .next (false, { d with block := r.2 })

/-- `powerup()`: the tick source is started, no command issued (46_link_layer_contract.md R208). -/
def powerUp (d : Driver) : Driver := { d with ticking := true }

/-- `powerdown()`: the tick source is stopped, no command issued (46_link_layer_contract.md R208). -/
def powerDown (d : Driver) : Driver := { d with ticking := false }

end Driver

end Sys2Proof.Machine
end

