-- ==== Sys2Proof/Safety.lean ====
section
/-! DEFINITION. What counts as a safe run: the step ends in a next state; and the invariants of 10_state.md R53 that rule
the stops out. -/

namespace Sys2Proof.Machine

/-- The outcome is a next state: no fault, no refusal (60_exceptions.md R230: nothing in the block panics or aborts). -/
def Completes (o : Host.Outcome State Fault Refusal) : Prop := ∃ t, o = .next t

namespace State

/-- All registers of 10_state.md R21 are 0. -/
def RegistersZero (s : State) : Prop :=
  s.rxEnabled = false ∧ s.rxActive = false ∧ s.rxReady = false ∧ s.ramp = 0 ∧ s.integ = 0 ∧ s.lastSample = false ∧
    s.hist = 0 ∧ s.bitCount = 0 ∧ s.bufLen = 0 ∧ s.expLen = 0 ∧ s.txActive = false ∧ s.txSample = 0 ∧ s.txBit = 0 ∧
    s.txIndex = 0 ∧ s.txLen = 0 ∧ s.txOut = false

/-- The two states agree on the receive group (10_state.md R20). -/
def SameReceiveGroup (s t : State) : Prop :=
  t.rxEnabled = s.rxEnabled ∧ t.rxActive = s.rxActive ∧ t.rxReady = s.rxReady ∧ t.ramp = s.ramp ∧ t.integ = s.integ ∧
    t.lastSample = s.lastSample ∧ t.hist = s.hist ∧ t.bitCount = s.bitCount ∧ t.bufLen = s.bufLen ∧
    t.expLen = s.expLen ∧ ∀ i, t.byteAt .rx i = s.byteAt .rx i

/-- The two states agree on the transmit group (10_state.md R20). -/
def SameTransmitGroup (s t : State) : Prop :=
  t.txActive = s.txActive ∧ t.txSample = s.txSample ∧ t.txBit = s.txBit ∧ t.txIndex = s.txIndex ∧ t.txLen = s.txLen ∧
    t.txOut = s.txOut ∧ ∀ i, t.byteAt .tx i = s.byteAt .tx i

/-- The receive half runs on a tick that begins in this state (40_tick_rx.md R121). -/
def ReceiverRuns (s : State) : Prop :=
  s.rxEnabled = true ∧ ¬(s.params.rxGatedByTx = true ∧ s.txActive = true)

/-- The nine invariants of 10_state.md R53, under a well-formed parameter set. Item 8 speaks of the run that led here: what
a state shows of it is that the entries are written; the whole item is `RunMeetsSpec` (log 12). -/
structure SpecInv (s : State) : Prop where
  params_wf : s.params.wf = true
  /-- Item 1. -/
  active_enabled : s.rxActive = true → s.rxEnabled = true
  /-- Item 2. -/
  active_notReady : s.rxActive = true → s.rxReady = false
  /-- Item 3. -/
  ramp_lt : s.ramp.toNat < s.params.rampMax
  integ_le : s.integ.toNat ≤ Params.ceilDiv s.params.rampMax s.params.rampIncRetard
  hist_lt : s.hist.toNat < 2 ^ (2 * s.params.symbolBits)
  bitCount_lt : s.bitCount.toNat < 2 * s.params.symbolBits
  /-- Item 4. -/
  inactive_bitCount : s.rxActive = false → s.bitCount = 0
  /-- Item 5. -/
  bufLen_le_cap : s.bufLen.toNat ≤ s.params.rxBufCap
  expLen_ok : 0 < s.bufLen.toNat → State.lengthOk s.params s.expLen = true
  bufLen_le_expLen : 0 < s.bufLen.toNat → s.bufLen.toNat ≤ s.expLen.toNat
  length_stored : 0 < s.bufLen.toNat → s.byteAt .rx 0 = s.expLen
  /-- Item 6. -/
  ready_whole : s.rxReady = true → s.bufLen = s.expLen ∧ 0 < s.bufLen.toNat
  active_partial : s.rxActive = true → 0 < s.bufLen.toNat → s.bufLen.toNat < s.expLen.toNat
  /-- Item 7. -/
  txLen_le_cap : s.txLen.toNat ≤ s.params.txBufCap
  txIndex_le_txLen : s.txIndex.toNat ≤ s.txLen.toNat
  txBit_lt : s.txBit.toNat < s.params.symbolBits
  txSample_lt : s.txSample.toNat < s.params.oversampling
  /-- Item 8, as far as a state shows it. -/
  tx_written : ∀ i, i < s.txLen.toNat → (Memory.read s.txBuf i).isSome = true
  /-- Item 9. -/
  tx_idle : s.txActive = false → s.txOut = false ∧ s.txSample = 0 ∧ s.txBit = 0

/-- 10_state.md R53 with what makes it inductive (log 12): the ramp has moved at least the retard increment for every high
sample counted; an exhausted buffer leaves no bit pending; the stored bytes of a frame are written; the memories keep
their form and stay inside their buffers. -/
structure Inv (s : State) : Prop extends SpecInv s where
  integ_ramp : s.integ.toNat * s.params.rampIncRetard ≤ s.ramp.toNat
  txBit_exhausted : s.txIndex = s.txLen → s.txBit = 0
  rx_written : ∀ i, i < s.bufLen.toNat → (Memory.read s.rxBuf i).isSome = true
  rxBuf_wf : Memory.wf s.rxBuf = true
  txBuf_wf : Memory.wf s.txBuf = true
  rxBuf_bounded : ∀ i, (Memory.read s.rxBuf i).isSome = true → i < s.params.rxBufCap
  txBuf_bounded : ∀ i, (Memory.read s.txBuf i).isSome = true → i < s.params.txBufCap

end State

/-- The event empties the symbol buffer when it comes in state `s`: a reset, or a `TX_CLEAR` that is not answered `BUSY`
(10_state.md R53 item 8, 43_host_tx_commands.md R180). -/
def Empties (e : Event) (s : State) : Prop :=
  e = .reset ∨ ∃ w, e = .cmd w ∧
    (decodeCommand w = .ok .reset ∨ decodeCommand w = .ok .txClear ∧ s.txActive = false)

/-- In the run of `events` from `s₀`, byte `v` was written at index `i` by a `TX_PUSH` answered `OK`, and no event since then
emptied the symbol buffer (10_state.md R53 item 8). -/
def PushedSinceLastClear (s₀ : State) (events : List Event) (i : Nat) (v : Byte) : Prop :=
  ∃ pre w post s u, events = pre ++ .cmd w :: post ∧ runEvents pre s₀ = .next s ∧ decodeCommand w = .ok (.txPush v) ∧
    s.txLen.toNat = i ∧ runCommand w s = .next u ∧ u.resp = some ⟨.ok, 0⟩ ∧
    ∀ mid e rest t, post = mid ++ e :: rest → runEvents mid u = .next t → ¬Empties e t

/-- 10_state.md R53 at the end `t` of the run of `events` from `s₀`, item 8 in the spec's own form. -/
def RunMeetsSpec (s₀ : State) (events : List Event) (t : State) : Prop :=
  t.SpecInv ∧ ∀ i, i < t.txLen.toNat → PushedSinceLastClear s₀ events i (t.byteAt .tx i)

end Sys2Proof.Machine
end

