-- ==== Sys2Proof/Certificates/Slice0/Obligations.lean ====
section
/-! DEFINITION. The statements about the model, for the provers. Each names the rule of spec/ it formalises. -/

open Sys2Proof Sys2Proof.Machine

/-! ### Encoding -/

/-- The words of 95_test_vectors.md V1, as 30_encoding.md R93 and R96 spell them. -/
def Obligations.WordsOfTheVectorsDecode : Prop :=
  decodeCommand 0x0000 = .ok .nop ∧ decodeCommand 0x0001 = .error .argNotZero ∧
  decodeCommand 0x1000 = .ok .reset ∧ decodeCommand 0x2005 = .ok (.csrRd 5) ∧
  decodeCommand 0x20FF = .ok (.csrRd 255) ∧ decodeCommand 0x2105 = .error .rsvNotZero ∧
  decodeCommand 0x3000 = .ok .rxEnable ∧ decodeCommand 0x4000 = .ok .rxDisable ∧
  decodeCommand 0x5000 = .ok .rxClear ∧ decodeCommand 0x6025 = .ok (.rxRead 37) ∧
  decodeCommand 0x7000 = .ok .txClear ∧ decodeCommand 0x802A = .ok (.txPush 0x2A) ∧
  decodeCommand 0x9000 = .ok .txStart ∧ decodeCommand 0xA000 = .error .reservedOp ∧
  decodeCommand 0xF001 = .error .tickOnCommandPort ∧ decodeRunWord 0xF000 = .ok (.tick false) ∧
  decodeRunWord 0xF001 = .ok (.tick true)

/-- 30_encoding.md R93: the rows of the opcode map select their operations, and no other word spells one. -/
def Obligations.OpcodeMapSelectsTheOperation : Prop :=
  ∀ w : Word,
    (w &&& 0xFFFF = 0x0000 → decodeRunWord w = .ok .nop) ∧
    (w &&& 0xFFFF = 0x1000 → decodeRunWord w = .ok .reset) ∧
    (w &&& 0xFF00 = 0x2000 → decodeRunWord w = .ok (.csrRd (w.extractLsb' 0 8))) ∧
    (w &&& 0xFFFF = 0x3000 → decodeRunWord w = .ok .rxEnable) ∧
    (w &&& 0xFFFF = 0x4000 → decodeRunWord w = .ok .rxDisable) ∧
    (w &&& 0xFFFF = 0x5000 → decodeRunWord w = .ok .rxClear) ∧
    (w &&& 0xFF00 = 0x6000 → decodeRunWord w = .ok (.rxRead (w.extractLsb' 0 8))) ∧
    (w &&& 0xFFFF = 0x7000 → decodeRunWord w = .ok .txClear) ∧
    (w &&& 0xFF00 = 0x8000 → decodeRunWord w = .ok (.txPush (w.extractLsb' 0 8))) ∧
    (w &&& 0xFFFF = 0x9000 → decodeRunWord w = .ok .txStart) ∧
    (w &&& 0xFFFE = 0xF000 → decodeRunWord w = .ok (.tick (w.getLsbD 0))) ∧
    (w &&& 0xFFFF ∉ [0x0000, 0x1000, 0x3000, 0x4000, 0x5000, 0x7000, 0x9000] →
      w &&& 0xFF00 ∉ [0x2000, 0x6000, 0x8000] → w &&& 0xFFFE ≠ 0xF000 → ∃ r, decodeRunWord w = .error r)

/-- Decoding undoes encoding and encoding undoes decoding (30_encoding.md R90, R91, R93): every operation, every operand,
and every word has one meaning. -/
def Obligations.DecodeAndEncodeAgree : Prop :=
  (∀ i : Instr, decodeRunWord (encode i) = .ok i) ∧
  (∀ i : Instr, i.wf .command = true → decodeCommand (encode i) = .ok i) ∧
  (∀ (w : Word) (i : Instr), decodeRunWord w = .ok i → encode i = w)

/-- 30_encoding.md R96: which words spell no command, what they are answered, and that every other word is one of the ten
commands; an operand out of range is not illegal but answered `RANGE`; which words of op 0xF are no tick. -/
def Obligations.WordsThatSpellNoCommandAreIllegal : Prop :=
  ∀ (w : Word) (op : Nat) (rsv : BitVec 4) (arg : Byte),
    op = (w.extractLsb' 12 4).toNat → rsv = w.extractLsb' 8 4 → arg = w.extractLsb' 0 8 →
    ((10 ≤ op ∨ rsv ≠ 0 ∨ (op ∉ [2, 6, 8] ∧ arg ≠ 0)) →
      ∀ s : State, s.params.wf = true → runCommand w s = .next { s with resp := some ⟨.illegal, 0⟩ }) ∧
    (¬(10 ≤ op ∨ rsv ≠ 0 ∨ (op ∉ [2, 6, 8] ∧ arg ≠ 0)) →
      ∃ i : Instr, i.wf .command = true ∧ ∀ s : State, runCommand w s = exec i s) ∧
    (op = 2 → rsv = 0 → 8 ≤ arg.toNat →
      ∀ s : State, s.params.wf = true → runCommand w s = .next { s with resp := some ⟨.range, 0⟩ }) ∧
    (op = 6 → rsv = 0 →
      ∀ s : State, s.params.wf = true → s.params.rxBufCap ≤ arg.toNat →
        runCommand w s = .next { s with resp := some ⟨.range, 0⟩ }) ∧
    (op = 15 → rsv ≠ 0 ∨ w.extractLsb' 1 7 ≠ 0 → ∃ r, decodeRunWord w = .error r)

/-! ### Steps and events -/

/-- What one step does with the first instant of the inputs (60_exceptions.md R237, 30_encoding.md R96). That no event
leaves the state as it is, and that inputs wait in a list, are the model's choices (log 1, log 2). -/
def Obligations.StepCarriesOutTheFirstEvent : Prop :=
  ∀ s : State, s.params.wf = true →
    (s.inputs = [] → step s = .next s) ∧
    ∀ rest : List Pins,
      (∀ tick cmd, s.inputs = ⟨true, tick, cmd⟩ :: rest → step s = .next (s.withInputs rest).resetRegisters) ∧
      (∀ x, s.inputs = ⟨false, some x, none⟩ :: rest → step s = exec (.tick x) (s.withInputs rest)) ∧
      (∀ x w, s.inputs = ⟨false, some x, some w⟩ :: rest →
        step s = exec (.tick x) (s.withInputs (⟨false, none, some w⟩ :: rest))) ∧
      (∀ w i, s.inputs = ⟨false, none, some w⟩ :: rest → decodeCommand w = .ok i →
        step s = exec i (s.withInputs rest)) ∧
      (∀ w r, s.inputs = ⟨false, none, some w⟩ :: rest → decodeCommand w = .error r →
        step s = .next ((s.withInputs rest).respond .illegal 0)) ∧
      (s.inputs = ⟨false, none, none⟩ :: rest → step s = .next (s.withInputs rest))

/-- A word presented next runs exactly the operation it spells (log 1). -/
def Obligations.PresentedWordRunsItsOperation : Prop :=
  ∀ (s : State) (w : Nat) (i : Instr), decodeTableWord 16 w = some i → step (s.withFetchWord 16 w) = exec i s

/-- 20_memory.md R71: of a tick and a command that coincide the tick is carried out first, the command second. -/
def Obligations.CoincidentTickGoesBeforeTheCommand : Prop :=
  ∀ (s t : State) (x : Bool) (w : Word) (rest : List Pins),
    s.inputs = ⟨false, some x, some w⟩ :: rest → exec (.tick x) s = .next t →
    ∃ u, step s = .next u ∧ u = { t with inputs := ⟨false, none, some w⟩ :: rest } ∧
      step u = runCommand w { t with inputs := rest }

/-- 70_reset_and_hazards.md R260: the reset event. The unspecified bytes are the free bytes of the new reset (log 6); a
coincident tick and command are lost, no response stands; `RESET` differs only in its answer. -/
def Obligations.ResetPinBeatsTickAndCommand : Prop :=
  ∀ (s : State) (tick : Option Bool) (cmd : Option Word) (rest : List Pins),
    s.params.wf = true → s.inputs = ⟨true, tick, cmd⟩ :: rest →
    ∃ t, step s = .next t ∧ t.RegistersZero ∧ t.resp = none ∧ t.inputs = rest ∧ t.params = s.params ∧
      (∀ b i, t.byteAt b i = Config.freeByte b (s.resets + 1) i) ∧
      exec .reset { s with inputs := rest } = .next { t with resp := some ⟨.ok, 0⟩ }

/-! ### Reset -/

/-- The reset state spelled out: the registers (10_state.md R21, 70_reset_and_hazards.md R261), the CSRs (10_state.md R46 to
R48), the pins (R52). The bytes, which the spec leaves unspecified, are the free bytes of the current reset (log 6); the
parameter set and the empty inputs are the model's choices (log 1, log 3). -/
def Obligations.ResetStateHoldsTheSpecsValues : Prop :=
  State.reset.RegistersZero ∧ (∀ n : Byte, n.toNat < 8 → State.reset.csr n = some 0) ∧
  State.reset.outputs = ⟨false, false, false, none⟩ ∧
  (∀ b i, State.reset.byteAt b i = Config.freeByte b State.reset.resets i) ∧
  State.reset.params = Params.p0 ∧ State.reset.inputs = []

/-- The invariants hold at reset, whatever the well-formed parameter set (10_state.md R53). -/
def Obligations.ResetStateMeetsTheInvariants : Prop :=
  State.reset.Inv ∧ ∀ p : Params, p.wf = true → State.Inv { State.reset with params := p }

/-- 70_reset_and_hazards.md R265: a tick with receiver and transmitter off changes nothing, so the reset state is a fixed
point of `TICK`. -/
def Obligations.TickKeepsTheIdleState : Prop :=
  (∀ (s : State) (x : Bool), s.params.wf = true → s.rxEnabled = false → s.txActive = false →
    ∃ t, exec (.tick x) s = .next t ∧ s.SameReceiveGroup t ∧ s.SameTransmitGroup t) ∧
  ∀ x : Bool, exec (.tick x) State.reset = .next State.reset

/-! ### Parameters -/

/-- 00_scope.md R11: the thirteen conditions, and that a set which breaks one is refused. The flag that says whether the
link layer is in use, and the way of refusing, are the model's choices (log 3, log 4). -/
def Obligations.WellFormedParametersAreTheThirteenConditions : Prop :=
  (∀ p : Params, p.wf = true ↔
    p.oversampling = 8 ∧ (1 ≤ p.symbolBits ∧ p.symbolBits ≤ 8) ∧
    (p.startSymbol.toNat < 2 ^ (2 * p.symbolBits) ∧ p.startSymbol ≠ 0) ∧
    (2 ≤ p.preamble.length ∧ (∀ e ∈ p.preamble, e.toNat < 2 ^ p.symbolBits) ∧
      (p.preamble.getD (p.preamble.length - 2) 0).toNat = p.startSymbol.toNat % 2 ^ p.symbolBits ∧
      (p.preamble.getD (p.preamble.length - 1) 0).toNat = p.startSymbol.toNat / 2 ^ p.symbolBits) ∧
    (p.enc.length = 16 ∧ (∀ n : Nibble, (enc4 p n).toNat < 2 ^ p.symbolBits) ∧
      (∀ m n : Nibble, enc4 p m = enc4 p n → m = n) ∧ ∀ d n : Nibble, dec4 p d (enc4 p n) = n) ∧
    (0 < p.rampMax ∧ p.rampMax % p.oversampling = 0 ∧ p.rampInc = p.rampMax / p.oversampling ∧
      p.rampTransition = p.rampMax / 2) ∧
    (1 ≤ p.rampIncRetard ∧ p.rampIncRetard ≤ p.rampInc ∧ p.rampInc ≤ p.rampIncAdvance ∧
      p.rampIncAdvance ≤ p.rampMax) ∧
    p.rampMax + p.rampIncAdvance ≤ 65535 ∧
    (p.rampMax + p.rampIncRetard - 1) / p.rampIncRetard ≤ 255 ∧
    (1 ≤ p.integThreshold ∧ p.integThreshold ≤ p.oversampling) ∧
    (1 ≤ p.messageMin ∧ p.messageMin ≤ p.messageMax ∧ p.messageMax ≤ p.rxBufCap ∧ p.rxBufCap ≤ 255) ∧
    (p.preamble.length + 2 * p.messageMax ≤ p.txBufCap ∧ p.txBufCap ≤ 255) ∧
    (p.linkLayer = true →
      p.messageMin = 1 + p.headerSize + 2 ∧ p.messageMax = 1 + p.headerSize + p.payloadMax + 2)) ∧
  Params.p0.wf = true ∧
  (∀ (i : Instr) (s : State), s.params.wf = false → exec i s = .refused .illFormedParameters) ∧
  (∀ s : State, s.params.wf = false → step s = .refused .illFormedParameters)

/-! ### Codec -/

/-- `dec4` undoes `enc4` under every draw, and outside the alphabet it is the draw, whatever that is (30_encoding.md R98,
R99). -/
def Obligations.DecodeOfASymbolIsItsNibbleElseTheDraw : Prop :=
  ∀ p : Params, p.wf = true → ∀ d : Nibble,
    (∀ n : Nibble, dec4 p d (enc4 p n) = n) ∧ (∀ s : Byte, (∀ n : Nibble, enc4 p n ≠ s) → dec4 p d s = d)

/-- 30_encoding.md R100: `decode8` is `dec4` of the two halves of the window, the older symbol giving the high nibble; the
worked example; and it inverts two consecutive encodings under every draw. -/
def Obligations.DecodeEightTakesTheOlderSymbolHigh : Prop :=
  (∀ (p : Params) (dHi dLo : Nibble) (h : Word),
    (decode8 p dHi dLo h).toNat =
      16 * (dec4 p dHi (BitVec.ofNat 8 (h.toNat % 2 ^ p.symbolBits))).toNat +
        (dec4 p dLo (BitVec.ofNat 8 (h.toNat / 2 ^ p.symbolBits % 2 ^ p.symbolBits))).toNat) ∧
  (∀ dHi dLo : Nibble, decode8 Params.p0 dHi dLo 0x98D = 0x0A) ∧
  ∀ (p : Params) (dHi dLo hi lo : Nibble) (h : Word), p.wf = true →
    h.toNat = (enc4 p lo).toNat * 2 ^ p.symbolBits + (enc4 p hi).toNat →
    (decode8 p dHi dLo h).toNat = 16 * hi.toNat + lo.toNat

/-- The bits of a byte's two symbols, sent bit 0 first and shifted into the history one by one, decode to that byte, for
every well-formed codec, every earlier history and every draw; and the bits of the last two preamble entries leave the
start symbol in the history (20_memory.md R61, R62; 30_encoding.md R101, R102; 40_tick_rx.md R127). -/
def Obligations.BitsOnTheWireComeBackAsTheByte : Prop :=
  ∀ (p : Params) (h : Word), p.wf = true → h.toNat < 2 ^ (2 * p.symbolBits) →
    (∀ (b : Byte) (dHi dLo : Nibble),
      decode8 p dHi dLo (((symbolPair p b).flatMap (entryBits p)).foldl (State.shiftIn p) h) = b) ∧
    ((p.preamble.drop (p.preamble.length - 2)).flatMap (entryBits p)).foldl (State.shiftIn p) h = p.startSymbol

/-! ### System commands -/

/-- 44_host_system_commands.md R190, with its words. -/
def Obligations.NopAnswersOkAndChangesNothing : Prop :=
  (∀ s : State, s.params.wf = true → exec .nop s = .next { s with resp := some ⟨.ok, 0⟩ }) ∧
  decodeCommand 0x0000 = .ok .nop ∧
  ∀ w : Word, 0 < w.toNat → w.toNat < 0x1000 → ∃ r, decodeCommand w = .error r

/-- 44_host_system_commands.md R193. The bytes after it are the free bytes of a new reset (log 6); parameters, pending
inputs and the count of draws are not registers and stay. -/
def Obligations.ResetCommandClearsEveryRegister : Prop :=
  decodeCommand 0x1000 = .ok .reset ∧
  ∀ s : State, s.params.wf = true →
    ∃ t, exec .reset s = .next t ∧ t.RegistersZero ∧ t.resp = some ⟨.ok, 0⟩ ∧
      (∀ b i, t.byteAt b i = Config.freeByte b (s.resets + 1) i) ∧
      t.params = s.params ∧ t.inputs = s.inputs ∧ t.draws = s.draws ∧ t.csr 0 = some 0

/-- 44_host_system_commands.md R192, with the layout of 10_state.md R47 and R48 spelled out field by field. -/
def Obligations.CsrReadAnswersTheNumberedRegister : Prop :=
  (∀ n : Byte, decodeCommand (0x2000 ||| n.setWidth 16) = .ok (.csrRd n)) ∧
  ∀ (s : State) (n : Byte), s.params.wf = true →
    (8 ≤ n.toNat → exec (.csrRd n) s = .next { s with resp := some ⟨.range, 0⟩ }) ∧
    (n.toNat < 8 → ∃ v : Word, exec (.csrRd n) s = .next { s with resp := some ⟨.ok, v⟩ } ∧
      (n = 0 → v.getLsbD 0 = s.rxEnabled ∧ v.getLsbD 1 = s.rxActive ∧ v.getLsbD 2 = s.rxReady ∧
        v.getLsbD 3 = s.txActive ∧ v.getLsbD 4 = s.txOut ∧ v.getLsbD 5 = s.lastSample ∧ v.extractLsb' 6 10 = 0) ∧
      (n = 1 → v = s.ramp) ∧
      (n = 2 → v.extractLsb' 0 8 = s.integ ∧ v.extractLsb' 8 8 = 0) ∧
      (n = 3 → v = s.hist) ∧
      (n = 4 → v.extractLsb' 0 8 = s.bitCount ∧ v.extractLsb' 8 8 = 0) ∧
      (n = 5 → v.extractLsb' 0 8 = s.bufLen ∧ v.extractLsb' 8 8 = s.expLen) ∧
      (n = 6 → v.extractLsb' 0 8 = s.txIndex ∧ v.extractLsb' 8 4 = s.txBit ∧ v.extractLsb' 12 4 = s.txSample) ∧
      (n = 7 → v.extractLsb' 0 8 = s.txLen ∧ v.extractLsb' 8 8 = 0))

/-! ### Receiver commands -/

/-- 42_host_rx_commands.md R170: the whole next state; `rx_buf` and the transmit group are kept. -/
def Obligations.ReceiverEnableReinitialisesTheReceiveGroup : Prop :=
  decodeCommand 0x3000 = .ok .rxEnable ∧
  ∀ s : State, s.params.wf = true →
    exec .rxEnable s = .next { s with
      rxEnabled := true, rxActive := false, rxReady := false, ramp := 0, integ := 0, lastSample := false, hist := 0,
      bitCount := 0, bufLen := 0, expLen := 0, resp := some ⟨.ok, 0⟩ }

/-- 42_host_rx_commands.md R171: the whole next state; a frame that is ready survives; ticks do nothing to the receive
group from then on. -/
def Obligations.ReceiverDisableKeepsTheRest : Prop :=
  decodeCommand 0x4000 = .ok .rxDisable ∧
  ∀ s : State, s.params.wf = true →
    exec .rxDisable s = .next { s with rxEnabled := false, rxActive := false, bitCount := 0, resp := some ⟨.ok, 0⟩ } ∧
    ∀ (x : Bool) (t u : State), exec .rxDisable s = .next t → exec (.tick x) t = .next u → t.SameReceiveGroup u

/-- 42_host_rx_commands.md R172: the whole next state. -/
def Obligations.ReceiverClearClearsReadyOnly : Prop :=
  decodeCommand 0x5000 = .ok .rxClear ∧
  ∀ s : State, s.params.wf = true →
    exec .rxClear s = .next { s with rxReady := false, resp := some ⟨.ok, 0⟩ }

/-- 42_host_rx_commands.md R173: the byte in range, `RANGE` from `RX_BUF_CAP` up, no state changed; a second read answers
the same. -/
def Obligations.ReceiveReadAnswersTheByteInRange : Prop :=
  (∀ i : Byte, decodeCommand (0x6000 ||| i.setWidth 16) = .ok (.rxRead i)) ∧
  ∀ (s : State) (i : Byte), s.params.wf = true →
    (s.params.rxBufCap ≤ i.toNat → exec (.rxRead i) s = .next { s with resp := some ⟨.range, 0⟩ }) ∧
    (i.toNat < s.params.rxBufCap →
      exec (.rxRead i) s = .next { s with resp := some ⟨.ok, (s.byteAt .rx i.toNat).setWidth 16⟩ } ∧
      ∀ t, exec (.rxRead i) s = .next t → exec (.rxRead i) t = .next t)

/-! ### Transmitter commands -/

/-- 43_host_tx_commands.md R180: the whole next state, idle and busy. -/
def Obligations.TransmitClearEmptiesTheBuffer : Prop :=
  decodeCommand 0x7000 = .ok .txClear ∧
  ∀ s : State, s.params.wf = true →
    (s.txActive = false → exec .txClear s = .next { s with txLen := 0, txIndex := 0, resp := some ⟨.ok, 0⟩ }) ∧
    (s.txActive = true → exec .txClear s = .next { s with resp := some ⟨.busy, 0⟩ })

/-- 43_host_tx_commands.md R181: where the entry goes, what stays, and the two refusals with `BUSY` first. The address
stored to is `tx_len` at entry. -/
def Obligations.TransmitPushAppendsOneEntry : Prop :=
  (∀ e : Byte, decodeCommand (0x8000 ||| e.setWidth 16) = .ok (.txPush e)) ∧
  ∀ (s : State) (e : Byte), s.params.wf = true →
    (s.txActive = true → exec (.txPush e) s = .next { s with resp := some ⟨.busy, 0⟩ }) ∧
    (s.txActive = false → s.params.txBufCap ≤ s.txLen.toNat →
      exec (.txPush e) s = .next { s with resp := some ⟨.oversize, 0⟩ }) ∧
    (s.txActive = false → s.txLen.toNat < s.params.txBufCap →
      ∃ t, exec (.txPush e) s = .next t ∧ t.byteAt .tx s.txLen.toNat = e ∧
        (∀ a, a ≠ s.txLen.toNat → t.byteAt .tx a = s.byteAt .tx a) ∧ t.txLen.toNat = s.txLen.toNat + 1 ∧
        t = { s with txBuf := t.txBuf, txLen := t.txLen, resp := some ⟨.ok, 0⟩ })

/-- 43_host_tx_commands.md R182: the whole next state, idle (an empty buffer included) and busy. -/
def Obligations.TransmitStartBeginsAtTheFirstBit : Prop :=
  decodeCommand 0x9000 = .ok .txStart ∧
  ∀ s : State, s.params.wf = true →
    (s.txActive = false → exec .txStart s = .next { s with
      txActive := true, txSample := 0, txBit := 0, txIndex := 0, resp := some ⟨.ok, 0⟩ }) ∧
    (s.txActive = true → exec .txStart s = .next { s with resp := some ⟨.busy, 0⟩ })

/-! ### Responses -/

/-- 60_exceptions.md R236: a non-zero code leaves no register and no buffer byte changed; and the next event, whatever it
is, does to every register and byte what it would have done had the refused command not been issued. -/
def Obligations.ErrorResponseLeavesNoTrace : Prop :=
  (∀ (w : Word) (s t : State) (r : Response), runCommand w s = .next t → t.resp = some r → r.code ≠ .ok →
    t = { s with resp := some ⟨r.code, 0⟩ }) ∧
  ∀ (e : Event) (s t : State) (q : Option Response), runEvent e s = .next t →
    ∃ u, runEvent e { s with resp := q } = .next u ∧ u = { t with resp := u.resp }

/-- 60_exceptions.md R238: the first check that fires gives the response; a word that decodes is carried out as its
command. -/
def Obligations.FirstFailingCheckGivesTheResponse : Prop :=
  ∀ (w : Word) (s : State), s.params.wf = true →
    (∀ i, decodeCommand w = .ok i → runCommand w s = exec i s) ∧
    ∃ t r, runCommand w s = .next t ∧ t.resp = some r ∧
      r.code =
        match decodeCommand w with
        | .error _ => .illegal
        | .ok .txClear => if s.txActive = true then .busy else .ok
        | .ok .txStart => if s.txActive = true then .busy else .ok
        | .ok (.txPush _) =>
          if s.txActive = true then .busy else if s.params.txBufCap ≤ s.txLen.toNat then .oversize else .ok
        | .ok (.csrRd n) => if 8 ≤ n.toNat then .range else .ok
        | .ok (.rxRead i) => if s.params.rxBufCap ≤ i.toNat then .range else .ok
        | .ok _ => .ok

/-- Every word on the command port is answered, with a code from 0 to 4 and data 0 unless the code is `OK`
(30_encoding.md R95). That a tick leaves the last response standing is the model's reading (log 5). -/
def Obligations.EveryCommandAnswersAndTicksDoNot : Prop :=
  (∀ (w : Word) (s : State), s.params.wf = true → ∃ t r, runCommand w s = .next t ∧ t.resp = some r ∧
    r.code.number.toNat ≤ 4 ∧ (r.code.number ≠ 0 → r.data = 0)) ∧
  ∀ (x : Bool) (s t : State), exec (.tick x) s = .next t → t.resp = s.resp

/-! ### The tick, transmit half -/

/-- 41_tick_tx.md R151: an idle transmitter ignores ticks, and its pin stays 0. -/
def Obligations.IdleTransmitterIgnoresTicks : Prop :=
  (∀ (s t : State) (x : Bool), s.txActive = false → exec (.tick x) s = .next t → s.SameTransmitGroup t) ∧
  ∀ (s : State) (x : Bool), s.Inv → s.txActive = false →
    ∃ t, exec (.tick x) s = .next t ∧ t.txOut = false ∧ t.txSample = s.txSample

/-- 41_tick_tx.md R152: the bit clock counts modulo `OVERSAMPLING` while active and touches pin and indices only when it is
0 at entry; `TX_START` sets it to 0. -/
def Obligations.BitClockCountsTicks : Prop :=
  (∀ (s : State) (x : Bool), s.Inv → s.txActive = true → s.txSample ≠ 0 →
    ∃ t, exec (.tick x) s = .next t ∧ t.txSample.toNat = (s.txSample.toNat + 1) % s.params.oversampling ∧
      t.txActive = true ∧ t.txOut = s.txOut ∧ t.txBit = s.txBit ∧ t.txIndex = s.txIndex) ∧
  (∀ (s : State) (x : Bool), s.Inv → s.txActive = true → s.txSample = 0 → s.txIndex.toNat < s.txLen.toNat →
    ∃ t, exec (.tick x) s = .next t ∧ t.txSample = 1) ∧
  (∀ s t : State, s.txActive = false → exec .txStart s = .next t → t.txSample = 0)

/-- 41_tick_tx.md R153 and R154: on a bit tick with symbols left, the selected bit goes to the pin and the indices move on;
the entry's bits from `W` up are never selected; between bit ticks the pin keeps its level. -/
def Obligations.BitTickSendsTheSelectedBit : Prop :=
  (∀ (s t : State) (x : Bool), s.txActive = true → s.txSample ≠ 0 → exec (.tick x) s = .next t → t.txOut = s.txOut) ∧
  ∀ (s : State) (x : Bool), s.Inv → s.txActive = true → s.txSample = 0 → s.txIndex.toNat < s.txLen.toNat →
    ∃ t, exec (.tick x) s = .next t ∧ t.txActive = true ∧
      t.txOut = (s.byteAt .tx s.txIndex.toNat).getLsbD s.txBit.toNat ∧ s.txBit.toNat < s.params.symbolBits ∧
      (s.txBit.toNat + 1 < s.params.symbolBits → t.txBit.toNat = s.txBit.toNat + 1 ∧ t.txIndex = s.txIndex) ∧
      (s.txBit.toNat + 1 = s.params.symbolBits → t.txBit = 0 ∧ t.txIndex.toNat = s.txIndex.toNat + 1) ∧
      t.txLen = s.txLen ∧ ∀ i, t.byteAt .tx i = s.byteAt .tx i

/-- 41_tick_tx.md R155: the completing tick. -/
def Obligations.BitTickAfterTheLastBitCompletes : Prop :=
  ∀ (s : State) (x : Bool), s.Inv → s.txActive = true → s.txSample = 0 → s.txLen.toNat ≤ s.txIndex.toNat →
    ∃ t, exec (.tick x) s = .next t ∧ t.txOut = false ∧ t.txActive = false ∧ t.txSample = 0 ∧ s.txBit = 0 ∧
      t.txBit = 0 ∧ s.txIndex = s.txLen ∧ t.txIndex = s.txLen

/-- 41_tick_tx.md R159: after tick `t` of a transmission of `n` entries the pin shows bit `t div 8` of the stream; tick
`8nW` completes. Whatever the receiver does meanwhile, and whatever samples the ticks carry. -/
def Obligations.TransmissionFollowsItsTimeline : Prop :=
  ∀ (s u : State) (xs : List Bool), s.Inv → s.txActive = false → exec .txStart s = .next u →
    (∀ t, xs.length = t + 1 → t < 8 * (s.txLen.toNat * s.params.symbolBits) →
      ∃ v, runTicks xs u = .next v ∧ v.txActive = true ∧
        v.txOut = (s.byteAt .tx (t / 8 / s.params.symbolBits)).getLsbD (t / 8 % s.params.symbolBits)) ∧
    (xs.length = 8 * (s.txLen.toNat * s.params.symbolBits) + 1 →
      ∃ v, runTicks xs u = .next v ∧ v.txActive = false ∧ v.txOut = false ∧ v.txSample = 0 ∧ v.txBit = 0 ∧
        v.txIndex = s.txLen ∧ v.txLen = s.txLen ∧ ∀ i, v.byteAt .tx i = s.byteAt .tx i)

/-- Nothing but a reset changes the symbol buffer or its length while a transmission is in progress (20_memory.md R67,
R75). -/
def Obligations.ActiveTransmissionKeepsItsBuffer : Prop :=
  ∀ (i : Instr) (s t : State), s.txActive = true → i ≠ .reset → exec i s = .next t →
    t.txLen = s.txLen ∧ (∀ a, t.byteAt .tx a = s.byteAt .tx a) ∧
    (i.wf .command = true → s.SameTransmitGroup t)

/-! ### The tick, receive half -/

/-- 40_tick_rx.md R121 and R124: when the receive half runs it remembers the sample, and when it does not run it changes
nothing of the receive group. -/
def Obligations.ReceiveHalfRunsOnlyWhenEnabledAndUngated : Prop :=
  ∀ (s t : State) (x : Bool), exec (.tick x) s = .next t →
    (s.ReceiverRuns → t.lastSample = x) ∧ (¬s.ReceiverRuns → s.SameReceiveGroup t)

/-- 40_tick_rx.md R122, R123, R125 to R128: the increment, the wrap, the decision, the shift and the dump, spelled out. -/
def Obligations.RampAdvancesAndWrapsIntoABit : Prop :=
  ∀ (s : State) (x : Bool) (inc : Nat), s.Inv → s.ReceiverRuns →
    inc = (if x = s.lastSample then s.params.rampInc
      else if s.ramp.toNat < s.params.rampMax / 2 then s.params.rampIncRetard else s.params.rampIncAdvance) →
    ∃ t, exec (.tick x) s = .next t ∧ t.lastSample = x ∧
      (s.ramp.toNat + inc < s.params.rampMax →
        t.ramp.toNat = s.ramp.toNat + inc ∧ t.integ.toNat = s.integ.toNat + x.toNat ∧ t.hist = s.hist ∧
        t.rxActive = s.rxActive ∧ t.rxReady = s.rxReady ∧ t.bitCount = s.bitCount ∧ t.bufLen = s.bufLen ∧
        t.expLen = s.expLen ∧ ∀ i, t.byteAt .rx i = s.byteAt .rx i) ∧
      (s.params.rampMax ≤ s.ramp.toNat + inc →
        t.ramp.toNat = s.ramp.toNat + inc - s.params.rampMax ∧ t.ramp.toNat < s.params.rampIncAdvance ∧ t.integ = 0 ∧
        t.hist = s.hist >>> 1 |||
          (if s.params.integThreshold ≤ s.integ.toNat + x.toNat then
            (1 : Word) <<< (2 * s.params.symbolBits - 1) else 0) ∧
        t.hist.toNat < 2 ^ (2 * s.params.symbolBits))

/-- 40_tick_rx.md R130: on a bit tick without a frame open, the start symbol opens one, unless a frame waits under `HOLD`;
the PLL's registers go on as on any bit tick. -/
def Obligations.StartSymbolOpensAFrame : Prop :=
  ∀ (s : State) (x : Bool), s.Inv → s.ReceiverRuns → s.isBitTick x = true → s.rxActive = false →
    ∃ t, exec (.tick x) s = .next t ∧
      t.hist = State.shiftIn s.params s.hist (s.decidedBit x) ∧ t.integ = 0 ∧ t.lastSample = x ∧
      t.ramp.toNat = s.rampSum x - s.params.rampMax ∧ (∀ i, t.byteAt .rx i = s.byteAt .rx i) ∧
      (t.hist = s.params.startSymbol ∧ (s.rxReady = false ∨ s.params.rxOverrun = .replace) →
        t.rxActive = true ∧ t.bitCount = 0 ∧ t.bufLen = 0 ∧ t.expLen = 0 ∧ t.rxReady = false) ∧
      (¬(t.hist = s.params.startSymbol ∧ (s.rxReady = false ∨ s.params.rxOverrun = .replace)) →
        t.rxActive = false ∧ t.bitCount = s.bitCount ∧ t.bufLen = s.bufLen ∧ t.expLen = s.expLen ∧
        t.rxReady = s.rxReady)

/-- On a bit tick inside a frame the bits are counted and the start symbol is not looked for (40_tick_rx.md R129, R131). -/
def Obligations.FrameBitsAreCounted : Prop :=
  ∀ (s : State) (x : Bool), s.Inv → s.ReceiverRuns → s.isBitTick x = true → s.rxActive = true →
    ∃ t, exec (.tick x) s = .next t ∧
      (s.bitCount.toNat + 1 < 2 * s.params.symbolBits →
        t.bitCount.toNat = s.bitCount.toNat + 1 ∧ t.rxActive = true ∧ t.rxReady = s.rxReady ∧ t.bufLen = s.bufLen ∧
        t.expLen = s.expLen ∧ ∀ i, t.byteAt .rx i = s.byteAt .rx i) ∧
      (s.bitCount.toNat + 1 = 2 * s.params.symbolBits → t.bitCount = 0)

/-- 40_tick_rx.md R134: a first byte outside `[MESSAGE_MIN, MESSAGE_MAX]` abandons the frame. The byte is the decoded window
with whatever the two draws are. -/
def Obligations.FirstByteOutOfRangeAbandonsTheFrame : Prop :=
  ∀ (s : State) (x : Bool) (d : Byte), s.Inv → s.ReceiverRuns → s.isBitTick x = true → s.rxActive = true →
    s.bitCount.toNat + 1 = 2 * s.params.symbolBits → s.bufLen = 0 →
    d = decode8 s.params (Config.freeNibble s.draws) (Config.freeNibble (s.draws + 1))
      (State.shiftIn s.params s.hist (s.decidedBit x)) →
    d.toNat < s.params.messageMin ∨ s.params.messageMax < d.toNat →
    ∃ t, exec (.tick x) s = .next t ∧ t.rxActive = false ∧ t.rxEnabled = true ∧ t.bufLen = 0 ∧ t.rxReady = false ∧
      t.expLen = d ∧ t.hist = State.shiftIn s.params s.hist (s.decidedBit x) ∧
      ∀ i, t.byteAt .rx i = s.byteAt .rx i

/-- 40_tick_rx.md R133, R135 and R136: an accepted byte is stored at `buf_len`, and the frame ends in the same operation
when the new `buf_len` is at least the length. -/
def Obligations.AcceptedByteIsStoredAndMayEndTheFrame : Prop :=
  ∀ (s : State) (x : Bool) (d : Byte), s.Inv → s.ReceiverRuns → s.isBitTick x = true → s.rxActive = true →
    s.bitCount.toNat + 1 = 2 * s.params.symbolBits →
    d = decode8 s.params (Config.freeNibble s.draws) (Config.freeNibble (s.draws + 1))
      (State.shiftIn s.params s.hist (s.decidedBit x)) →
    (s.bufLen = 0 → s.params.messageMin ≤ d.toNat ∧ d.toNat ≤ s.params.messageMax) →
    ∃ t, exec (.tick x) s = .next t ∧ t.bitCount = 0 ∧
      t.byteAt .rx s.bufLen.toNat = d ∧ (∀ a, a ≠ s.bufLen.toNat → t.byteAt .rx a = s.byteAt .rx a) ∧
      t.bufLen.toNat = s.bufLen.toNat + 1 ∧ s.bufLen.toNat < s.params.rxBufCap ∧
      (s.bufLen = 0 → t.expLen = d) ∧ (s.bufLen ≠ 0 → t.expLen = s.expLen) ∧
      (t.expLen.toNat ≤ t.bufLen.toNat → t.rxActive = false ∧ t.rxReady = true) ∧
      (t.bufLen.toNat < t.expLen.toNat → t.rxActive = true ∧ t.rxReady = false)

/-! ### Frames and groups -/

/-- What a tick leaves alone: the transmit buffer and its length and the enable flag (10_state.md R21; 41_tick_tx.md R150),
the ports, the parameters; and every byte of the receive buffer but, on the bit tick that completes a byte of a frame, the
one at `buf_len` (40_tick_rx.md R135, R139). The response that stands, the pending inputs, the count of resets and the count
of draws are the model's own (log 5, log 1, log 6, log 7). -/
def Obligations.TickFrame : Prop :=
  ∀ (s t : State) (x : Bool), exec (.tick x) s = .next t →
    t.params = s.params ∧ t.rxEnabled = s.rxEnabled ∧ t.txLen = s.txLen ∧ (∀ a, t.byteAt .tx a = s.byteAt .tx a) ∧
    t.resp = s.resp ∧ t.inputs = s.inputs ∧ t.resets = s.resets ∧
    (∀ a, a ≠ s.bufLen.toNat → t.byteAt .rx a = s.byteAt .rx a) ∧
    (¬(s.ReceiverRuns ∧ s.isBitTick x = true ∧ s.rxActive = true ∧
        2 * s.params.symbolBits ≤ s.bitCount.toNat + 1) →
      t.draws = s.draws ∧ ∀ a, t.byteAt .rx a = s.byteAt .rx a)

/-- What the commands leave alone: the system reads and the receiver's commands the transmit group, the transmitter's
commands the receive group, `RX_READ` and `CSR_RD` both; no command but `RESET` and `TX_PUSH` changes a buffer byte
(10_state.md R20, R21, which lists the writers of every register). The pending inputs and the counts of resets and draws are
the model's own (log 1, log 6, log 7). -/
def Obligations.CommandFrame : Prop :=
  ∀ (i : Instr) (s t : State), exec i s = .next t → i.wf .command = true → i ≠ .reset →
    t.params = s.params ∧ t.inputs = s.inputs ∧ t.resets = s.resets ∧ t.draws = s.draws ∧
    (∀ a, t.byteAt .rx a = s.byteAt .rx a) ∧
    ((∀ e, i ≠ .txPush e) → ∀ a, t.byteAt .tx a = s.byteAt .tx a) ∧
    (i ≠ .rxEnable → i ≠ .rxDisable → i ≠ .rxClear → s.SameReceiveGroup t) ∧
    (i ≠ .txClear → i ≠ .txStart → (∀ e, i ≠ .txPush e) → s.SameTransmitGroup t)

/-- The two halves share nothing: the transmit group after a tick does not depend on the sample or the receive group, and,
without the gate, the receive group does not depend on the transmit group (10_state.md R20, 20_memory.md R72). -/
def Obligations.HalvesOfATickShareNothing : Prop :=
  ∀ (s u t v : State) (x y : Bool), u.params = s.params →
    exec (.tick x) s = .next t → exec (.tick y) u = .next v →
    (s.SameTransmitGroup u → t.SameTransmitGroup v) ∧
    (s.SameReceiveGroup u → x = y → s.params.rxGatedByTx = false → u.draws = s.draws →
      t.SameReceiveGroup v)

/-- Under `HOLD` a waiting frame stays whole, whatever ticks and commands fall before it is cleared: only `RX_CLEAR`,
`RX_ENABLE` and `RESET` let it go (20_memory.md R74). -/
def Obligations.HeldFrameIsTheHosts : Prop :=
  ∀ (ops : List Instr) (s t : State), s.Inv → s.params.rxOverrun = .hold → s.rxReady = true →
    (∀ i ∈ ops, i ≠ .rxClear ∧ i ≠ .rxEnable ∧ i ≠ .reset) → runOps ops s = .next t →
    t.rxReady = true ∧ t.bufLen = s.bufLen ∧ t.expLen = s.expLen ∧ ∀ a, t.byteAt .rx a = s.byteAt .rx a

/-! ### Invariants and safety -/

/-- Every step keeps the invariants, under every well-formed parameter set (10_state.md R53, strengthened as log 12
says). -/
def Obligations.EveryStepKeepsTheInvariants : Prop :=
  ∀ s t : State, s.Inv → step s = .next t → t.Inv

/-- Every operation completes in every state that meets the invariants, and keeps them: none of the eleven ever stops
(60_exceptions.md R230, 10_state.md R53 as log 12 strengthens it). -/
def Obligations.EveryOperationCompletesAndKeepsTheInvariants : Prop :=
  ∀ (i : Instr) (s : State), s.Inv → ∃ t, exec i s = .next t ∧ t.Inv

/-- No step from a state that meets the invariants stops: nothing in the block panics or aborts (60_exceptions.md R230). -/
def Obligations.NoStepStops : Prop :=
  ∀ s : State, s.Inv → Completes (step s)

/-- Every state that any inputs, and any sequence of events, lead to from reset, under any well-formed parameter set, meets
10_state.md R53, and the run never stops. Over events, item 8 stands in the spec's own form: each entry below `tx_len` was
written by a `TX_PUSH` since the last `TX_CLEAR` or reset (log 12). -/
def Obligations.EveryRunFromResetMeetsTheSpecsInvariants : Prop :=
  (∀ (p : Params) (inputs : List Pins) (k : Nat), p.wf = true →
    ∃ t, runSteps k { State.reset with params := p, inputs := inputs } = .next t ∧ State.SpecInv t) ∧
  ∀ (p : Params) (events : List Event), p.wf = true →
    ∃ t, runEvents events { State.reset with params := p } = .next t ∧
      RunMeetsSpec { State.reset with params := p } events t

/-- The receive half never stores outside its buffer, and no tick stops, whatever the sample, the parameters and the two
draws (40_tick_rx.md R139, the source's length-bound enforcement). -/
def Obligations.ReceiveNeverOverrunsItsBuffer : Prop :=
  ∀ (s : State) (x : Bool) (dHi dLo : Nibble), s.Inv →
    ∃ t, andThen (txHalf s) (rxHalf s.txActive x dHi dLo) = .next t ∧
      ∀ a, s.params.rxBufCap ≤ a → t.byteAt .rx a = s.byteAt .rx a

/-- ACTIVE ends within `2W * MESSAGE_MAX * ceil(RAMP_MAX / RAMP_INC_RETARD)` ticks, whatever they carry
(70_reset_and_hazards.md R274), with the receiver not gated. -/
def Obligations.ActiveEndsWithinTheBound : Prop :=
  ∀ (s : State) (xs : List Bool), s.Inv → s.params.rxGatedByTx = false → s.rxActive = true →
    xs.length = 2 * s.params.symbolBits * s.params.messageMax *
      ((s.params.rampMax + s.params.rampIncRetard - 1) / s.params.rampIncRetard) →
    ∃ k t, k ≤ xs.length ∧ runTicks (xs.take k) s = .next t ∧ t.rxActive = false

/-- Without a transition the ramp comes back to where it was after `OVERSAMPLING` ticks, with exactly one bit decided
(40_tick_rx.md R140). -/
def Obligations.QuietLineDecidesOneBitInEightTicks : Prop :=
  ∀ s : State, s.Inv → s.params.rxGatedByTx = false → s.rxEnabled = true →
    ∃ t k, runTicks (List.replicate 8 s.lastSample) s = .next t ∧ t.ramp = s.ramp ∧ k < 8 ∧
      ∀ j u, j < 8 → runTicks (List.replicate j s.lastSample) s = .next u →
        (u.isBitTick s.lastSample = true ↔ j = k)

/-- In P0, under any input, the remainder after a wrap is at most 28, and two consecutive bit ticks are at least 6 and at
most 12 ticks apart (40_tick_rx.md R140). -/
def Obligations.BitTicksAreSixToTwelveTicksApart : Prop :=
  ∀ s : State, s.Inv → s.params = Params.p0 → s.rxEnabled = true →
    (∀ (x : Bool) (t : State), s.isBitTick x = true → exec (.tick x) s = .next t → t.ramp.toNat ≤ 28) ∧
    (s.ramp.toNat ≤ 28 → ∀ (x : Bool) (xs : List Bool) (t : State), xs.length ≤ 4 → runTicks xs s = .next t →
      t.isBitTick x = false) ∧
    (∀ xs : List Bool, xs.length = 12 →
      ∃ ys x zs t, xs = ys ++ x :: zs ∧ runTicks ys s = .next t ∧ t.isBitTick x = true)

/-! ### The host side -/

/-- Pushing a list of entries after `TX_CLEAR` fills the symbol buffer with exactly that list (43_host_tx_commands.md R180,
R181; 30_encoding.md R106 `LOAD`); and so it does for every placement of ticks among the commands, which do to the receive
group what they would have done alone (20_memory.md R70, R75). -/
def Obligations.LoadFillsTheSymbolBuffer : Prop :=
  (∀ (s : State) (entries : List Byte), s.params.wf = true → s.txActive = false →
    entries.length ≤ s.params.txBufCap →
    ∃ t, runOps (loadOps entries) s = .next t ∧ t.txLen.toNat = entries.length ∧ t.txIndex = 0 ∧
      t.resp = some ⟨.ok, 0⟩ ∧ (∀ k (h : k < entries.length), t.byteAt .tx k = entries[k]) ∧ s.SameReceiveGroup t) ∧
  ∀ (s : State) (entries : List Byte) (gaps : List (List Bool)), s.Inv → s.txActive = false →
    entries.length ≤ s.params.txBufCap →
    ∃ t u, runSpaced (loadOps entries) gaps s = .next t ∧ t.Inv ∧ t.txActive = false ∧
      t.txLen.toNat = entries.length ∧ t.txIndex = 0 ∧ t.resp = some ⟨.ok, 0⟩ ∧
      (∀ k (h : k < entries.length), t.byteAt .tx k = entries[k]) ∧
      runTicks (gaps.take (entries.length + 1)).flatten s = .next u ∧ u.SameReceiveGroup t

/-- A message within `PAYLOAD_MAX` fits: its frame has `1 + 5 + n + 2` bytes, within `[MESSAGE_MIN, MESSAGE_MAX]`, the first
being that length, and its symbols fit the symbol buffer (46_link_layer_contract.md R202, R203, R205). -/
def Obligations.MessageFitsTheSymbolBuffer : Prop :=
  ∀ (p : Params) (h : Header) (payload : List Byte), p.wf = true → p.linkLayer = true → p.headerSize = 5 →
    payload.length ≤ p.payloadMax →
    (buildFrame h payload).length = 1 + 5 + payload.length + 2 ∧
    p.messageMin ≤ (buildFrame h payload).length ∧ (buildFrame h payload).length ≤ p.messageMax ∧
    ((buildFrame h payload).getD 0 0).toNat = (buildFrame h payload).length ∧
    (expandFrame p (buildFrame h payload)).length = p.preamble.length + 2 * (buildFrame h payload).length ∧
    (expandFrame p (buildFrame h payload)).length ≤ p.txBufCap

/-- Any bytes followed by the ones' complement of their checksum, low byte first, leave the residue 0xF0B8
(46_link_layer_contract.md R202, R204). -/
def Obligations.ChecksummedBytesLeaveTheResidue : Prop :=
  ∀ bytes : List Byte, crc16 (bytes ++ lowFirst (crc16 bytes ^^^ 0xFFFF)) = 0xF0B8

/-- What `recv` makes of a frame built by `send`: the message, at a device on the same network that it is addressed to or
that is reached by BROADCAST, and nothing elsewhere (46_link_layer_contract.md R206, R207). -/
def Obligations.BuiltFrameIsReceivedByItsAddresseeOnly : Prop :=
  ∀ (h : Header) (payload : List Byte) (network : Word) (device broadcast : Byte),
    (h.network = network ∧ (h.dest = device ∨ h.dest = broadcast) →
      checkFrame network device broadcast (buildFrame h payload) = .message h.src h.port payload) ∧
    (¬(h.network = network ∧ (h.dest = device ∨ h.dest = broadcast)) →
      checkFrame network device broadcast (buildFrame h payload) = .otherAddress)

/-- The round trip, sample for sample (46_link_layer_contract.md R212; 95_test_vectors.md P1 is one instance): in P0, two
blocks wired pin to pin and ticked together; the sender idle, the receiver enabled before. Ticks fall among the commands of
`send` and of `recv` as they will (20_memory.md R70), so the frame starts at any phase of the receiver. After the ticks of
the frame and at least one more the receiver holds the frame byte for byte, and `recv` gives back source, port and payload,
at every device that the destination names or BROADCAST reaches. Both blocks are otherwise in any state that meets the
invariants, the sender hears what it will, and no draw matters. -/
def Obligations.RoundTripReproducesTheMessage : Prop :=
  ∀ (a b : State) (h : Header) (payload : List Byte) (gaps during : List (List Bool)) (heard : List Bool)
    (device broadcast : Byte),
    a.Inv → b.Inv → a.params = Params.p0 → b.params = Params.p0 → a.txActive = false → payload.length ≤ 30 →
    8 * ((8 + 2 * (8 + payload.length)) * 6) + 1 ≤ heard.length → h.dest = device ∨ h.dest = broadcast →
    ∃ a₁ a₂ b₁ b₂ b₃ b₄, exec .rxEnable b = .next b₁ ∧ send gaps h payload a = .next (.sent, a₁) ∧
      wiredSpaced (.csrRd 0 :: sendBytesOps a.params (buildFrame h payload)) gaps (a, b₁) = .next (a₁, b₂) ∧
      wiredTicks heard (a₁, b₂) = .next (a₂, b₃) ∧ a₂.txActive = false ∧ b₃.rxReady = true ∧
      (List.range b₃.bufLen.toNat).map (b₃.byteAt .rx) = buildFrame h payload ∧
      recv h.network device broadcast during [] b₃ = .next (.message h.src h.port payload, b₄) ∧ b₄.rxReady = false

/-- Checksum sensitivity (46_link_layer_contract.md R212): with any one bit of any one byte of a built frame flipped the
checks of `recv` give a checksum mismatch, at every address; and so does `recv` itself, sample for sample in P0, when one
bit of the payload is flipped before the frame is expanded into symbols and sent, wherever ticks fall among the commands. -/
def Obligations.FlippedBitIsAChecksumMismatch : Prop :=
  (∀ (h : Header) (payload : List Byte) (i j : Nat) (network : Word) (device broadcast : Byte),
    i < (buildFrame h payload).length → j < 8 →
    checkFrame network device broadcast (flipBit (buildFrame h payload) i j) = .checksumMismatch) ∧
  ∀ (a b : State) (h : Header) (payload : List Byte) (gaps during : List (List Bool)) (heard : List Bool) (i j : Nat)
    (network : Word) (device broadcast : Byte),
    a.Inv → b.Inv → a.params = Params.p0 → b.params = Params.p0 → a.txActive = false → payload.length ≤ 30 →
    8 * ((8 + 2 * (8 + payload.length)) * 6) + 1 ≤ heard.length → i < payload.length → j < 8 →
    ∃ a₁ a₂ b₁ b₂ b₃ b₄, exec .rxEnable b = .next b₁ ∧
      wiredSpaced (sendBytesOps a.params (flipBit (buildFrame h payload) (6 + i) j)) gaps (a, b₁) = .next (a₁, b₂) ∧
      wiredTicks heard (a₁, b₂) = .next (a₂, b₃) ∧ b₃.rxReady = true ∧
      recv network device broadcast during [] b₃ = .next (.checksumMismatch, b₄) ∧ b₄.rxReady = false

/-- What the driver's calls come to, for every placement of ticks among their commands (20_memory.md R70, R73, R74;
70_reset_and_hazards.md R270, R272; 30_encoding.md R106; 42_host_rx_commands.md R174; 43_host_tx_commands.md R183;
46_link_layer_contract.md R206 to R208): a wait ends on what STATUS shows; `DRAIN` completes and clears `rx_ready`, and
gives the bytes below `buf_len` in order where no tick falls, or the receiver is off, or the frame is held; `recv` times
out, drains and checks, and goes on waiting after a frame for another address; `send` turns a payload too long away before
any command, is turned away while a transmission goes on, and otherwise leaves the whole frame in the symbol buffer and the
transmitter at its first bit; `begin` programs the tick source and enables a receiver if there is one, or does nothing;
`end` waits, disables and stops the ticks, and gives up only with the transmission still going; `powerdown` stops the
strobes. That a wait ends with a list of gaps is the model's choice (log 18). -/
def Obligations.DriverFollowsTheContract : Prop :=
  (∀ (ready : Word → Bool) (l : List (List Bool)) (s : State), s.Inv →
    ∃ shown t, waitFor ready l s = .next (shown, t) ∧ t.Inv ∧ shown = ready t.statusWord ∧
      t.resp = some ⟨.ok, t.statusWord⟩ ∧
      (ready s.statusWord = true → t = { s with resp := some ⟨.ok, s.statusWord⟩ })) ∧
  (∀ (gaps : List (List Bool)) (s : State), s.Inv →
    runOps (drainOps s.bufLen) s = .next { s with rxReady := false, resp := some ⟨.ok, 0⟩ } ∧
    ∃ bytes t, drain gaps s = .next (bytes, t) ∧ t.Inv ∧ t.rxReady = false ∧ t.resp = some ⟨.ok, 0⟩ ∧
      (gaps = [] → t = { s with rxReady := false, resp := some ⟨.ok, 0⟩ }) ∧
      (gaps = [] ∨ s.rxEnabled = false ∨ (s.params.rxOverrun = .hold ∧ s.rxReady = true) →
        bytes = (List.range s.bufLen.toNat).map (s.byteAt .rx) ∧ t.bufLen = s.bufLen ∧
        ∀ i, t.byteAt .rx i = s.byteAt .rx i)) ∧
  (∀ (network : Word) (device broadcast : Byte) (during : List (List Bool)) (next : Round) (l : List Round) (s p : State),
    s.Inv → p = { s with resp := some ⟨.ok, s.statusWord⟩ } →
    (s.rxReady = false →
      recv network device broadcast during [] s = .next (.timeout, p) ∧
      recv network device broadcast during (next :: l) s =
        andThen (runTicks next.before p) (recv network device broadcast next.during l)) ∧
    (s.rxReady = true → ∃ bytes t, drain during p = .next (bytes, t) ∧
      (checkFrame network device broadcast bytes = .checksumMismatch →
        recv network device broadcast during l s = .next (.checksumMismatch, t)) ∧
      (∀ src port payload, checkFrame network device broadcast bytes = .message src port payload →
        recv network device broadcast during l s = .next (.message src port payload, t)) ∧
      (checkFrame network device broadcast bytes = .otherAddress →
        recv network device broadcast during [] s = .next (.timeout, t) ∧
        recv network device broadcast during (next :: l) s =
          andThen (runTicks next.before t) (recv network device broadcast next.during l)))) ∧
  (∀ (gaps : List (List Bool)) (h : Header) (payload : List Byte) (s : State), s.params.wf = true →
    (s.params.payloadMax < payload.length → send gaps h payload s = .next (.oversizePayload, s)) ∧
    (payload.length ≤ s.params.payloadMax → ∀ u, runTicks (gaps.headD []) s = .next u → u.txActive = true →
      send gaps h payload s = .next (.busy, { u with resp := some ⟨.ok, u.statusWord⟩ })) ∧
    (payload.length ≤ s.params.payloadMax → s.params.linkLayer = true → s.params.headerSize = 5 → s.Inv →
      s.txActive = false →
      ∃ t, send gaps h payload s = .next (.sent, t) ∧ t.Inv ∧ t.txActive = true ∧ t.txSample = 0 ∧ t.txBit = 0 ∧
        t.txIndex = 0 ∧ t.txOut = false ∧ t.resp = some ⟨.ok, 0⟩ ∧
        (List.range t.txLen.toNat).map (t.byteAt .tx) = expandFrame s.params (buildFrame h payload))) ∧
  (∀ (round : Nat → Nat → Nat) (hw : Timer) (bitRate : Nat) (xs : List Bool) (d : Driver),
    d.block.params.wf = true →
    (configureTimer round hw d.block.params.oversampling bitRate = none →
      d.start round hw bitRate xs = .next (false, d)) ∧
    ∀ c, configureTimer round hw d.block.params.oversampling bitRate = some c →
      (d.receives = true → ∀ u, runTicks xs d.block = .next u → ∃ t, exec .rxEnable u = .next t ∧
        d.start round hw bitRate xs = .next (true, { d with block := t, setting := some c, ticking := true })) ∧
      (d.receives = false →
        d.start round hw bitRate xs = .next (true, { d with setting := some c, ticking := true }))) ∧
  ∀ (l : List (List Bool)) (before after xs : List Bool) (d : Driver), d.block.Inv →
    (∃ ended e, d.stop l before after = .next (ended, e) ∧ e.block.Inv ∧ e.setting = d.setting ∧
      e.receives = d.receives ∧
      (ended = true → e.ticking = false ∧ e.block.rxEnabled = false ∧ e.block.rxActive = false ∧
        e.block.txActive = false) ∧
      (ended = false → e.ticking = d.ticking ∧ e.block.txActive = true) ∧
      (d.block.txActive = false → ended = true) ∧
      (d.ticking = true → 8 * (d.block.txLen.toNat * d.block.params.symbolBits + 1) ≤ l.flatten.length →
        ended = true)) ∧
    d.powerDown.offerTicks xs = .next d.powerDown ∧ d.powerDown.powerUp = { d with ticking := true } ∧
    ∃ t, runTicks xs d.block = .next t ∧
      d.powerUp.offerTicks xs = .next { d with block := t, ticking := true }

/-- The Timing Configurator (46_link_layer_contract.md R209, R212). Of any candidates it takes one with the largest reload
value that fits the counter, and fails only if none fits; that a reload value of 0 does not fit is the model's choice (log
17). From bit rate and oversampling factor it takes a prescaler of the table with the reload value that the rounding gives,
within the counter, and fails exactly on the bit rates for which no prescaler has one. A rounding that never grows with the
divisor makes it the smallest prescaler that fits; with the quotient rounded down and prescalers that divide one another,
the period it makes is at most the one asked for and the nearest to it that any fitting candidate makes. -/
def Obligations.LargestFittingReloadIsChosen : Prop :=
  (∀ (counterMax : Nat) (l : List TimerSetting),
    (chooseSetting counterMax l = none ↔ ∀ c ∈ l, c.reload = 0 ∨ counterMax < c.reload) ∧
    ∀ c, chooseSetting counterMax l = some c →
      c ∈ l ∧ 1 ≤ c.reload ∧ c.reload ≤ counterMax ∧
      ∀ d ∈ l, d.reload ≤ counterMax → d.reload ≤ c.reload) ∧
  ∀ (round : Nat → Nat → Nat) (hw : Timer) (oversampling bitRate : Nat),
    (configureTimer round hw oversampling bitRate = none ↔
      ∀ q ∈ hw.prescalers, q * (bitRate * oversampling) = 0 ∨
        round hw.clock (q * (bitRate * oversampling)) = 0 ∨
        2 ^ hw.counterBits - 1 < round hw.clock (q * (bitRate * oversampling))) ∧
    ∀ c, configureTimer round hw oversampling bitRate = some c →
      c.prescaler ∈ hw.prescalers ∧ c.reload = round hw.clock (c.prescaler * (bitRate * oversampling)) ∧
      1 ≤ c.reload ∧ c.reload ≤ 2 ^ hw.counterBits - 1 ∧
      (∀ q ∈ hw.prescalers, 0 < q → round hw.clock (q * (bitRate * oversampling)) ≤ 2 ^ hw.counterBits - 1 →
        round hw.clock (q * (bitRate * oversampling)) ≤ c.reload ∧
        ((∀ d e, 0 < d → d ≤ e → round hw.clock e ≤ round hw.clock d) → c.prescaler ≤ q) ∧
        (round = (· / ·) → (∀ x ∈ hw.prescalers, ∀ y ∈ hw.prescalers, x ∣ y ∨ y ∣ x) →
          q * round hw.clock (q * (bitRate * oversampling)) ≤ c.prescaler * c.reload)) ∧
      (round = (· / ·) → c.prescaler * c.reload * (bitRate * oversampling) ≤ hw.clock)
end

