-- ==== Sys2Proof/Laws/State.lean ====
section
/-! SUPPORT. One lemma per field per update of State: what the field is after the update, true by rfl. -/

namespace Sys2Proof.Machine.State

/-! ### `respond` -/

@[simp] theorem respond_params (c : Code) (v : Word) (s : State) : (s.respond c v).params = s.params := rfl
@[simp] theorem respond_rxEnabled (c : Code) (v : Word) (s : State) : (s.respond c v).rxEnabled = s.rxEnabled := rfl
@[simp] theorem respond_rxActive (c : Code) (v : Word) (s : State) : (s.respond c v).rxActive = s.rxActive := rfl
@[simp] theorem respond_rxReady (c : Code) (v : Word) (s : State) : (s.respond c v).rxReady = s.rxReady := rfl
@[simp] theorem respond_ramp (c : Code) (v : Word) (s : State) : (s.respond c v).ramp = s.ramp := rfl
@[simp] theorem respond_integ (c : Code) (v : Word) (s : State) : (s.respond c v).integ = s.integ := rfl
@[simp] theorem respond_lastSample (c : Code) (v : Word) (s : State) : (s.respond c v).lastSample = s.lastSample := rfl
@[simp] theorem respond_hist (c : Code) (v : Word) (s : State) : (s.respond c v).hist = s.hist := rfl
@[simp] theorem respond_bitCount (c : Code) (v : Word) (s : State) : (s.respond c v).bitCount = s.bitCount := rfl
@[simp] theorem respond_bufLen (c : Code) (v : Word) (s : State) : (s.respond c v).bufLen = s.bufLen := rfl
@[simp] theorem respond_expLen (c : Code) (v : Word) (s : State) : (s.respond c v).expLen = s.expLen := rfl
@[simp] theorem respond_rxBuf (c : Code) (v : Word) (s : State) : (s.respond c v).rxBuf = s.rxBuf := rfl
@[simp] theorem respond_txActive (c : Code) (v : Word) (s : State) : (s.respond c v).txActive = s.txActive := rfl
@[simp] theorem respond_txSample (c : Code) (v : Word) (s : State) : (s.respond c v).txSample = s.txSample := rfl
@[simp] theorem respond_txBit (c : Code) (v : Word) (s : State) : (s.respond c v).txBit = s.txBit := rfl
@[simp] theorem respond_txIndex (c : Code) (v : Word) (s : State) : (s.respond c v).txIndex = s.txIndex := rfl
@[simp] theorem respond_txLen (c : Code) (v : Word) (s : State) : (s.respond c v).txLen = s.txLen := rfl
@[simp] theorem respond_txOut (c : Code) (v : Word) (s : State) : (s.respond c v).txOut = s.txOut := rfl
@[simp] theorem respond_txBuf (c : Code) (v : Word) (s : State) : (s.respond c v).txBuf = s.txBuf := rfl
@[simp] theorem respond_resp (c : Code) (v : Word) (s : State) : (s.respond c v).resp = some ⟨c, v⟩ := rfl
@[simp] theorem respond_inputs (c : Code) (v : Word) (s : State) : (s.respond c v).inputs = s.inputs := rfl
@[simp] theorem respond_resets (c : Code) (v : Word) (s : State) : (s.respond c v).resets = s.resets := rfl
@[simp] theorem respond_draws (c : Code) (v : Word) (s : State) : (s.respond c v).draws = s.draws := rfl

/-! ### `refuse` -/

@[simp] theorem refuse_params (c : Code) (s : State) : (s.refuse c).params = s.params := rfl
@[simp] theorem refuse_rxEnabled (c : Code) (s : State) : (s.refuse c).rxEnabled = s.rxEnabled := rfl
@[simp] theorem refuse_rxActive (c : Code) (s : State) : (s.refuse c).rxActive = s.rxActive := rfl
@[simp] theorem refuse_rxReady (c : Code) (s : State) : (s.refuse c).rxReady = s.rxReady := rfl
@[simp] theorem refuse_ramp (c : Code) (s : State) : (s.refuse c).ramp = s.ramp := rfl
@[simp] theorem refuse_integ (c : Code) (s : State) : (s.refuse c).integ = s.integ := rfl
@[simp] theorem refuse_lastSample (c : Code) (s : State) : (s.refuse c).lastSample = s.lastSample := rfl
@[simp] theorem refuse_hist (c : Code) (s : State) : (s.refuse c).hist = s.hist := rfl
@[simp] theorem refuse_bitCount (c : Code) (s : State) : (s.refuse c).bitCount = s.bitCount := rfl
@[simp] theorem refuse_bufLen (c : Code) (s : State) : (s.refuse c).bufLen = s.bufLen := rfl
@[simp] theorem refuse_expLen (c : Code) (s : State) : (s.refuse c).expLen = s.expLen := rfl
@[simp] theorem refuse_rxBuf (c : Code) (s : State) : (s.refuse c).rxBuf = s.rxBuf := rfl
@[simp] theorem refuse_txActive (c : Code) (s : State) : (s.refuse c).txActive = s.txActive := rfl
@[simp] theorem refuse_txSample (c : Code) (s : State) : (s.refuse c).txSample = s.txSample := rfl
@[simp] theorem refuse_txBit (c : Code) (s : State) : (s.refuse c).txBit = s.txBit := rfl
@[simp] theorem refuse_txIndex (c : Code) (s : State) : (s.refuse c).txIndex = s.txIndex := rfl
@[simp] theorem refuse_txLen (c : Code) (s : State) : (s.refuse c).txLen = s.txLen := rfl
@[simp] theorem refuse_txOut (c : Code) (s : State) : (s.refuse c).txOut = s.txOut := rfl
@[simp] theorem refuse_txBuf (c : Code) (s : State) : (s.refuse c).txBuf = s.txBuf := rfl
@[simp] theorem refuse_resp (c : Code) (s : State) : (s.refuse c).resp = some ⟨c, 0⟩ := rfl
@[simp] theorem refuse_inputs (c : Code) (s : State) : (s.refuse c).inputs = s.inputs := rfl
@[simp] theorem refuse_resets (c : Code) (s : State) : (s.refuse c).resets = s.resets := rfl
@[simp] theorem refuse_draws (c : Code) (s : State) : (s.refuse c).draws = s.draws := rfl

/-! ### `resetRegisters` -/

@[simp] theorem resetRegisters_params (s : State) : (s.resetRegisters).params = s.params := rfl
@[simp] theorem resetRegisters_rxEnabled (s : State) : (s.resetRegisters).rxEnabled = false := rfl
@[simp] theorem resetRegisters_rxActive (s : State) : (s.resetRegisters).rxActive = false := rfl
@[simp] theorem resetRegisters_rxReady (s : State) : (s.resetRegisters).rxReady = false := rfl
@[simp] theorem resetRegisters_ramp (s : State) : (s.resetRegisters).ramp = 0 := rfl
@[simp] theorem resetRegisters_integ (s : State) : (s.resetRegisters).integ = 0 := rfl
@[simp] theorem resetRegisters_lastSample (s : State) : (s.resetRegisters).lastSample = false := rfl
@[simp] theorem resetRegisters_hist (s : State) : (s.resetRegisters).hist = 0 := rfl
@[simp] theorem resetRegisters_bitCount (s : State) : (s.resetRegisters).bitCount = 0 := rfl
@[simp] theorem resetRegisters_bufLen (s : State) : (s.resetRegisters).bufLen = 0 := rfl
@[simp] theorem resetRegisters_expLen (s : State) : (s.resetRegisters).expLen = 0 := rfl
@[simp] theorem resetRegisters_rxBuf (s : State) : (s.resetRegisters).rxBuf = [] := rfl
@[simp] theorem resetRegisters_txActive (s : State) : (s.resetRegisters).txActive = false := rfl
@[simp] theorem resetRegisters_txSample (s : State) : (s.resetRegisters).txSample = 0 := rfl
@[simp] theorem resetRegisters_txBit (s : State) : (s.resetRegisters).txBit = 0 := rfl
@[simp] theorem resetRegisters_txIndex (s : State) : (s.resetRegisters).txIndex = 0 := rfl
@[simp] theorem resetRegisters_txLen (s : State) : (s.resetRegisters).txLen = 0 := rfl
@[simp] theorem resetRegisters_txOut (s : State) : (s.resetRegisters).txOut = false := rfl
@[simp] theorem resetRegisters_txBuf (s : State) : (s.resetRegisters).txBuf = [] := rfl
@[simp] theorem resetRegisters_resp (s : State) : (s.resetRegisters).resp = none := rfl
@[simp] theorem resetRegisters_inputs (s : State) : (s.resetRegisters).inputs = s.inputs := rfl
@[simp] theorem resetRegisters_resets (s : State) : (s.resetRegisters).resets = s.resets + 1 := rfl
@[simp] theorem resetRegisters_draws (s : State) : (s.resetRegisters).draws = s.draws := rfl

/-! ### `withInputs` -/

@[simp] theorem withInputs_params (l : List Pins) (s : State) : (s.withInputs l).params = s.params := rfl
@[simp] theorem withInputs_rxEnabled (l : List Pins) (s : State) : (s.withInputs l).rxEnabled = s.rxEnabled := rfl
@[simp] theorem withInputs_rxActive (l : List Pins) (s : State) : (s.withInputs l).rxActive = s.rxActive := rfl
@[simp] theorem withInputs_rxReady (l : List Pins) (s : State) : (s.withInputs l).rxReady = s.rxReady := rfl
@[simp] theorem withInputs_ramp (l : List Pins) (s : State) : (s.withInputs l).ramp = s.ramp := rfl
@[simp] theorem withInputs_integ (l : List Pins) (s : State) : (s.withInputs l).integ = s.integ := rfl
@[simp] theorem withInputs_lastSample (l : List Pins) (s : State) : (s.withInputs l).lastSample = s.lastSample := rfl
@[simp] theorem withInputs_hist (l : List Pins) (s : State) : (s.withInputs l).hist = s.hist := rfl
@[simp] theorem withInputs_bitCount (l : List Pins) (s : State) : (s.withInputs l).bitCount = s.bitCount := rfl
@[simp] theorem withInputs_bufLen (l : List Pins) (s : State) : (s.withInputs l).bufLen = s.bufLen := rfl
@[simp] theorem withInputs_expLen (l : List Pins) (s : State) : (s.withInputs l).expLen = s.expLen := rfl
@[simp] theorem withInputs_rxBuf (l : List Pins) (s : State) : (s.withInputs l).rxBuf = s.rxBuf := rfl
@[simp] theorem withInputs_txActive (l : List Pins) (s : State) : (s.withInputs l).txActive = s.txActive := rfl
@[simp] theorem withInputs_txSample (l : List Pins) (s : State) : (s.withInputs l).txSample = s.txSample := rfl
@[simp] theorem withInputs_txBit (l : List Pins) (s : State) : (s.withInputs l).txBit = s.txBit := rfl
@[simp] theorem withInputs_txIndex (l : List Pins) (s : State) : (s.withInputs l).txIndex = s.txIndex := rfl
@[simp] theorem withInputs_txLen (l : List Pins) (s : State) : (s.withInputs l).txLen = s.txLen := rfl
@[simp] theorem withInputs_txOut (l : List Pins) (s : State) : (s.withInputs l).txOut = s.txOut := rfl
@[simp] theorem withInputs_txBuf (l : List Pins) (s : State) : (s.withInputs l).txBuf = s.txBuf := rfl
@[simp] theorem withInputs_resp (l : List Pins) (s : State) : (s.withInputs l).resp = s.resp := rfl
@[simp] theorem withInputs_inputs (l : List Pins) (s : State) : (s.withInputs l).inputs = l := rfl
@[simp] theorem withInputs_resets (l : List Pins) (s : State) : (s.withInputs l).resets = s.resets := rfl
@[simp] theorem withInputs_draws (l : List Pins) (s : State) : (s.withInputs l).draws = s.draws := rfl

/-! ### `enableRx` -/

@[simp] theorem enableRx_params (s : State) : (s.enableRx).params = s.params := rfl
@[simp] theorem enableRx_rxEnabled (s : State) : (s.enableRx).rxEnabled = true := rfl
@[simp] theorem enableRx_rxActive (s : State) : (s.enableRx).rxActive = false := rfl
@[simp] theorem enableRx_rxReady (s : State) : (s.enableRx).rxReady = false := rfl
@[simp] theorem enableRx_ramp (s : State) : (s.enableRx).ramp = 0 := rfl
@[simp] theorem enableRx_integ (s : State) : (s.enableRx).integ = 0 := rfl
@[simp] theorem enableRx_lastSample (s : State) : (s.enableRx).lastSample = false := rfl
@[simp] theorem enableRx_hist (s : State) : (s.enableRx).hist = 0 := rfl
@[simp] theorem enableRx_bitCount (s : State) : (s.enableRx).bitCount = 0 := rfl
@[simp] theorem enableRx_bufLen (s : State) : (s.enableRx).bufLen = 0 := rfl
@[simp] theorem enableRx_expLen (s : State) : (s.enableRx).expLen = 0 := rfl
@[simp] theorem enableRx_rxBuf (s : State) : (s.enableRx).rxBuf = s.rxBuf := rfl
@[simp] theorem enableRx_txActive (s : State) : (s.enableRx).txActive = s.txActive := rfl
@[simp] theorem enableRx_txSample (s : State) : (s.enableRx).txSample = s.txSample := rfl
@[simp] theorem enableRx_txBit (s : State) : (s.enableRx).txBit = s.txBit := rfl
@[simp] theorem enableRx_txIndex (s : State) : (s.enableRx).txIndex = s.txIndex := rfl
@[simp] theorem enableRx_txLen (s : State) : (s.enableRx).txLen = s.txLen := rfl
@[simp] theorem enableRx_txOut (s : State) : (s.enableRx).txOut = s.txOut := rfl
@[simp] theorem enableRx_txBuf (s : State) : (s.enableRx).txBuf = s.txBuf := rfl
@[simp] theorem enableRx_resp (s : State) : (s.enableRx).resp = s.resp := rfl
@[simp] theorem enableRx_inputs (s : State) : (s.enableRx).inputs = s.inputs := rfl
@[simp] theorem enableRx_resets (s : State) : (s.enableRx).resets = s.resets := rfl
@[simp] theorem enableRx_draws (s : State) : (s.enableRx).draws = s.draws := rfl

/-! ### `disableRx` -/

@[simp] theorem disableRx_params (s : State) : (s.disableRx).params = s.params := rfl
@[simp] theorem disableRx_rxEnabled (s : State) : (s.disableRx).rxEnabled = false := rfl
@[simp] theorem disableRx_rxActive (s : State) : (s.disableRx).rxActive = false := rfl
@[simp] theorem disableRx_rxReady (s : State) : (s.disableRx).rxReady = s.rxReady := rfl
@[simp] theorem disableRx_ramp (s : State) : (s.disableRx).ramp = s.ramp := rfl
@[simp] theorem disableRx_integ (s : State) : (s.disableRx).integ = s.integ := rfl
@[simp] theorem disableRx_lastSample (s : State) : (s.disableRx).lastSample = s.lastSample := rfl
@[simp] theorem disableRx_hist (s : State) : (s.disableRx).hist = s.hist := rfl
@[simp] theorem disableRx_bitCount (s : State) : (s.disableRx).bitCount = 0 := rfl
@[simp] theorem disableRx_bufLen (s : State) : (s.disableRx).bufLen = s.bufLen := rfl
@[simp] theorem disableRx_expLen (s : State) : (s.disableRx).expLen = s.expLen := rfl
@[simp] theorem disableRx_rxBuf (s : State) : (s.disableRx).rxBuf = s.rxBuf := rfl
@[simp] theorem disableRx_txActive (s : State) : (s.disableRx).txActive = s.txActive := rfl
@[simp] theorem disableRx_txSample (s : State) : (s.disableRx).txSample = s.txSample := rfl
@[simp] theorem disableRx_txBit (s : State) : (s.disableRx).txBit = s.txBit := rfl
@[simp] theorem disableRx_txIndex (s : State) : (s.disableRx).txIndex = s.txIndex := rfl
@[simp] theorem disableRx_txLen (s : State) : (s.disableRx).txLen = s.txLen := rfl
@[simp] theorem disableRx_txOut (s : State) : (s.disableRx).txOut = s.txOut := rfl
@[simp] theorem disableRx_txBuf (s : State) : (s.disableRx).txBuf = s.txBuf := rfl
@[simp] theorem disableRx_resp (s : State) : (s.disableRx).resp = s.resp := rfl
@[simp] theorem disableRx_inputs (s : State) : (s.disableRx).inputs = s.inputs := rfl
@[simp] theorem disableRx_resets (s : State) : (s.disableRx).resets = s.resets := rfl
@[simp] theorem disableRx_draws (s : State) : (s.disableRx).draws = s.draws := rfl

/-! ### `clearReady` -/

@[simp] theorem clearReady_params (s : State) : (s.clearReady).params = s.params := rfl
@[simp] theorem clearReady_rxEnabled (s : State) : (s.clearReady).rxEnabled = s.rxEnabled := rfl
@[simp] theorem clearReady_rxActive (s : State) : (s.clearReady).rxActive = s.rxActive := rfl
@[simp] theorem clearReady_rxReady (s : State) : (s.clearReady).rxReady = false := rfl
@[simp] theorem clearReady_ramp (s : State) : (s.clearReady).ramp = s.ramp := rfl
@[simp] theorem clearReady_integ (s : State) : (s.clearReady).integ = s.integ := rfl
@[simp] theorem clearReady_lastSample (s : State) : (s.clearReady).lastSample = s.lastSample := rfl
@[simp] theorem clearReady_hist (s : State) : (s.clearReady).hist = s.hist := rfl
@[simp] theorem clearReady_bitCount (s : State) : (s.clearReady).bitCount = s.bitCount := rfl
@[simp] theorem clearReady_bufLen (s : State) : (s.clearReady).bufLen = s.bufLen := rfl
@[simp] theorem clearReady_expLen (s : State) : (s.clearReady).expLen = s.expLen := rfl
@[simp] theorem clearReady_rxBuf (s : State) : (s.clearReady).rxBuf = s.rxBuf := rfl
@[simp] theorem clearReady_txActive (s : State) : (s.clearReady).txActive = s.txActive := rfl
@[simp] theorem clearReady_txSample (s : State) : (s.clearReady).txSample = s.txSample := rfl
@[simp] theorem clearReady_txBit (s : State) : (s.clearReady).txBit = s.txBit := rfl
@[simp] theorem clearReady_txIndex (s : State) : (s.clearReady).txIndex = s.txIndex := rfl
@[simp] theorem clearReady_txLen (s : State) : (s.clearReady).txLen = s.txLen := rfl
@[simp] theorem clearReady_txOut (s : State) : (s.clearReady).txOut = s.txOut := rfl
@[simp] theorem clearReady_txBuf (s : State) : (s.clearReady).txBuf = s.txBuf := rfl
@[simp] theorem clearReady_resp (s : State) : (s.clearReady).resp = s.resp := rfl
@[simp] theorem clearReady_inputs (s : State) : (s.clearReady).inputs = s.inputs := rfl
@[simp] theorem clearReady_resets (s : State) : (s.clearReady).resets = s.resets := rfl
@[simp] theorem clearReady_draws (s : State) : (s.clearReady).draws = s.draws := rfl

/-! ### `emptyTx` -/

@[simp] theorem emptyTx_params (s : State) : (s.emptyTx).params = s.params := rfl
@[simp] theorem emptyTx_rxEnabled (s : State) : (s.emptyTx).rxEnabled = s.rxEnabled := rfl
@[simp] theorem emptyTx_rxActive (s : State) : (s.emptyTx).rxActive = s.rxActive := rfl
@[simp] theorem emptyTx_rxReady (s : State) : (s.emptyTx).rxReady = s.rxReady := rfl
@[simp] theorem emptyTx_ramp (s : State) : (s.emptyTx).ramp = s.ramp := rfl
@[simp] theorem emptyTx_integ (s : State) : (s.emptyTx).integ = s.integ := rfl
@[simp] theorem emptyTx_lastSample (s : State) : (s.emptyTx).lastSample = s.lastSample := rfl
@[simp] theorem emptyTx_hist (s : State) : (s.emptyTx).hist = s.hist := rfl
@[simp] theorem emptyTx_bitCount (s : State) : (s.emptyTx).bitCount = s.bitCount := rfl
@[simp] theorem emptyTx_bufLen (s : State) : (s.emptyTx).bufLen = s.bufLen := rfl
@[simp] theorem emptyTx_expLen (s : State) : (s.emptyTx).expLen = s.expLen := rfl
@[simp] theorem emptyTx_rxBuf (s : State) : (s.emptyTx).rxBuf = s.rxBuf := rfl
@[simp] theorem emptyTx_txActive (s : State) : (s.emptyTx).txActive = s.txActive := rfl
@[simp] theorem emptyTx_txSample (s : State) : (s.emptyTx).txSample = s.txSample := rfl
@[simp] theorem emptyTx_txBit (s : State) : (s.emptyTx).txBit = s.txBit := rfl
@[simp] theorem emptyTx_txIndex (s : State) : (s.emptyTx).txIndex = 0 := rfl
@[simp] theorem emptyTx_txLen (s : State) : (s.emptyTx).txLen = 0 := rfl
@[simp] theorem emptyTx_txOut (s : State) : (s.emptyTx).txOut = s.txOut := rfl
@[simp] theorem emptyTx_txBuf (s : State) : (s.emptyTx).txBuf = s.txBuf := rfl
@[simp] theorem emptyTx_resp (s : State) : (s.emptyTx).resp = s.resp := rfl
@[simp] theorem emptyTx_inputs (s : State) : (s.emptyTx).inputs = s.inputs := rfl
@[simp] theorem emptyTx_resets (s : State) : (s.emptyTx).resets = s.resets := rfl
@[simp] theorem emptyTx_draws (s : State) : (s.emptyTx).draws = s.draws := rfl

/-! ### `appendTx` -/

@[simp] theorem appendTx_params (e : Byte) (s : State) : (s.appendTx e).params = s.params := rfl
@[simp] theorem appendTx_rxEnabled (e : Byte) (s : State) : (s.appendTx e).rxEnabled = s.rxEnabled := rfl
@[simp] theorem appendTx_rxActive (e : Byte) (s : State) : (s.appendTx e).rxActive = s.rxActive := rfl
@[simp] theorem appendTx_rxReady (e : Byte) (s : State) : (s.appendTx e).rxReady = s.rxReady := rfl
@[simp] theorem appendTx_ramp (e : Byte) (s : State) : (s.appendTx e).ramp = s.ramp := rfl
@[simp] theorem appendTx_integ (e : Byte) (s : State) : (s.appendTx e).integ = s.integ := rfl
@[simp] theorem appendTx_lastSample (e : Byte) (s : State) : (s.appendTx e).lastSample = s.lastSample := rfl
@[simp] theorem appendTx_hist (e : Byte) (s : State) : (s.appendTx e).hist = s.hist := rfl
@[simp] theorem appendTx_bitCount (e : Byte) (s : State) : (s.appendTx e).bitCount = s.bitCount := rfl
@[simp] theorem appendTx_bufLen (e : Byte) (s : State) : (s.appendTx e).bufLen = s.bufLen := rfl
@[simp] theorem appendTx_expLen (e : Byte) (s : State) : (s.appendTx e).expLen = s.expLen := rfl
@[simp] theorem appendTx_rxBuf (e : Byte) (s : State) : (s.appendTx e).rxBuf = s.rxBuf := rfl
@[simp] theorem appendTx_txActive (e : Byte) (s : State) : (s.appendTx e).txActive = s.txActive := rfl
@[simp] theorem appendTx_txSample (e : Byte) (s : State) : (s.appendTx e).txSample = s.txSample := rfl
@[simp] theorem appendTx_txBit (e : Byte) (s : State) : (s.appendTx e).txBit = s.txBit := rfl
@[simp] theorem appendTx_txIndex (e : Byte) (s : State) : (s.appendTx e).txIndex = s.txIndex := rfl
@[simp] theorem appendTx_txLen (e : Byte) (s : State) : (s.appendTx e).txLen = s.txLen + 1 := rfl
@[simp] theorem appendTx_txOut (e : Byte) (s : State) : (s.appendTx e).txOut = s.txOut := rfl
@[simp] theorem appendTx_txBuf (e : Byte) (s : State) : (s.appendTx e).txBuf = Memory.write s.txBuf s.txLen.toNat e := rfl
@[simp] theorem appendTx_resp (e : Byte) (s : State) : (s.appendTx e).resp = s.resp := rfl
@[simp] theorem appendTx_inputs (e : Byte) (s : State) : (s.appendTx e).inputs = s.inputs := rfl
@[simp] theorem appendTx_resets (e : Byte) (s : State) : (s.appendTx e).resets = s.resets := rfl
@[simp] theorem appendTx_draws (e : Byte) (s : State) : (s.appendTx e).draws = s.draws := rfl

/-! ### `startTx` -/

@[simp] theorem startTx_params (s : State) : (s.startTx).params = s.params := rfl
@[simp] theorem startTx_rxEnabled (s : State) : (s.startTx).rxEnabled = s.rxEnabled := rfl
@[simp] theorem startTx_rxActive (s : State) : (s.startTx).rxActive = s.rxActive := rfl
@[simp] theorem startTx_rxReady (s : State) : (s.startTx).rxReady = s.rxReady := rfl
@[simp] theorem startTx_ramp (s : State) : (s.startTx).ramp = s.ramp := rfl
@[simp] theorem startTx_integ (s : State) : (s.startTx).integ = s.integ := rfl
@[simp] theorem startTx_lastSample (s : State) : (s.startTx).lastSample = s.lastSample := rfl
@[simp] theorem startTx_hist (s : State) : (s.startTx).hist = s.hist := rfl
@[simp] theorem startTx_bitCount (s : State) : (s.startTx).bitCount = s.bitCount := rfl
@[simp] theorem startTx_bufLen (s : State) : (s.startTx).bufLen = s.bufLen := rfl
@[simp] theorem startTx_expLen (s : State) : (s.startTx).expLen = s.expLen := rfl
@[simp] theorem startTx_rxBuf (s : State) : (s.startTx).rxBuf = s.rxBuf := rfl
@[simp] theorem startTx_txActive (s : State) : (s.startTx).txActive = true := rfl
@[simp] theorem startTx_txSample (s : State) : (s.startTx).txSample = 0 := rfl
@[simp] theorem startTx_txBit (s : State) : (s.startTx).txBit = 0 := rfl
@[simp] theorem startTx_txIndex (s : State) : (s.startTx).txIndex = 0 := rfl
@[simp] theorem startTx_txLen (s : State) : (s.startTx).txLen = s.txLen := rfl
@[simp] theorem startTx_txOut (s : State) : (s.startTx).txOut = s.txOut := rfl
@[simp] theorem startTx_txBuf (s : State) : (s.startTx).txBuf = s.txBuf := rfl
@[simp] theorem startTx_resp (s : State) : (s.startTx).resp = s.resp := rfl
@[simp] theorem startTx_inputs (s : State) : (s.startTx).inputs = s.inputs := rfl
@[simp] theorem startTx_resets (s : State) : (s.startTx).resets = s.resets := rfl
@[simp] theorem startTx_draws (s : State) : (s.startTx).draws = s.draws := rfl

/-! ### `countTxSample` -/

@[simp] theorem countTxSample_params (s : State) : (s.countTxSample).params = s.params := rfl
@[simp] theorem countTxSample_rxEnabled (s : State) : (s.countTxSample).rxEnabled = s.rxEnabled := rfl
@[simp] theorem countTxSample_rxActive (s : State) : (s.countTxSample).rxActive = s.rxActive := rfl
@[simp] theorem countTxSample_rxReady (s : State) : (s.countTxSample).rxReady = s.rxReady := rfl
@[simp] theorem countTxSample_ramp (s : State) : (s.countTxSample).ramp = s.ramp := rfl
@[simp] theorem countTxSample_integ (s : State) : (s.countTxSample).integ = s.integ := rfl
@[simp] theorem countTxSample_lastSample (s : State) : (s.countTxSample).lastSample = s.lastSample := rfl
@[simp] theorem countTxSample_hist (s : State) : (s.countTxSample).hist = s.hist := rfl
@[simp] theorem countTxSample_bitCount (s : State) : (s.countTxSample).bitCount = s.bitCount := rfl
@[simp] theorem countTxSample_bufLen (s : State) : (s.countTxSample).bufLen = s.bufLen := rfl
@[simp] theorem countTxSample_expLen (s : State) : (s.countTxSample).expLen = s.expLen := rfl
@[simp] theorem countTxSample_rxBuf (s : State) : (s.countTxSample).rxBuf = s.rxBuf := rfl
@[simp] theorem countTxSample_txActive (s : State) : (s.countTxSample).txActive = s.txActive := rfl
@[simp] theorem countTxSample_txSample (s : State) : (s.countTxSample).txSample = BitVec.ofNat 4 ((s.txSample.toNat + 1) % s.params.oversampling) := rfl
@[simp] theorem countTxSample_txBit (s : State) : (s.countTxSample).txBit = s.txBit := rfl
@[simp] theorem countTxSample_txIndex (s : State) : (s.countTxSample).txIndex = s.txIndex := rfl
@[simp] theorem countTxSample_txLen (s : State) : (s.countTxSample).txLen = s.txLen := rfl
@[simp] theorem countTxSample_txOut (s : State) : (s.countTxSample).txOut = s.txOut := rfl
@[simp] theorem countTxSample_txBuf (s : State) : (s.countTxSample).txBuf = s.txBuf := rfl
@[simp] theorem countTxSample_resp (s : State) : (s.countTxSample).resp = s.resp := rfl
@[simp] theorem countTxSample_inputs (s : State) : (s.countTxSample).inputs = s.inputs := rfl
@[simp] theorem countTxSample_resets (s : State) : (s.countTxSample).resets = s.resets := rfl
@[simp] theorem countTxSample_draws (s : State) : (s.countTxSample).draws = s.draws := rfl

/-! ### `finishTx` -/

@[simp] theorem finishTx_params (s : State) : (s.finishTx).params = s.params := rfl
@[simp] theorem finishTx_rxEnabled (s : State) : (s.finishTx).rxEnabled = s.rxEnabled := rfl
@[simp] theorem finishTx_rxActive (s : State) : (s.finishTx).rxActive = s.rxActive := rfl
@[simp] theorem finishTx_rxReady (s : State) : (s.finishTx).rxReady = s.rxReady := rfl
@[simp] theorem finishTx_ramp (s : State) : (s.finishTx).ramp = s.ramp := rfl
@[simp] theorem finishTx_integ (s : State) : (s.finishTx).integ = s.integ := rfl
@[simp] theorem finishTx_lastSample (s : State) : (s.finishTx).lastSample = s.lastSample := rfl
@[simp] theorem finishTx_hist (s : State) : (s.finishTx).hist = s.hist := rfl
@[simp] theorem finishTx_bitCount (s : State) : (s.finishTx).bitCount = s.bitCount := rfl
@[simp] theorem finishTx_bufLen (s : State) : (s.finishTx).bufLen = s.bufLen := rfl
@[simp] theorem finishTx_expLen (s : State) : (s.finishTx).expLen = s.expLen := rfl
@[simp] theorem finishTx_rxBuf (s : State) : (s.finishTx).rxBuf = s.rxBuf := rfl
@[simp] theorem finishTx_txActive (s : State) : (s.finishTx).txActive = false := rfl
@[simp] theorem finishTx_txSample (s : State) : (s.finishTx).txSample = 0 := rfl
@[simp] theorem finishTx_txBit (s : State) : (s.finishTx).txBit = s.txBit := rfl
@[simp] theorem finishTx_txIndex (s : State) : (s.finishTx).txIndex = s.txIndex := rfl
@[simp] theorem finishTx_txLen (s : State) : (s.finishTx).txLen = s.txLen := rfl
@[simp] theorem finishTx_txOut (s : State) : (s.finishTx).txOut = false := rfl
@[simp] theorem finishTx_txBuf (s : State) : (s.finishTx).txBuf = s.txBuf := rfl
@[simp] theorem finishTx_resp (s : State) : (s.finishTx).resp = s.resp := rfl
@[simp] theorem finishTx_inputs (s : State) : (s.finishTx).inputs = s.inputs := rfl
@[simp] theorem finishTx_resets (s : State) : (s.finishTx).resets = s.resets := rfl
@[simp] theorem finishTx_draws (s : State) : (s.finishTx).draws = s.draws := rfl

/-! ### `sendBit` -/

@[simp] theorem sendBit_params (b : Bool) (s : State) : (s.sendBit b).params = s.params := rfl
@[simp] theorem sendBit_rxEnabled (b : Bool) (s : State) : (s.sendBit b).rxEnabled = s.rxEnabled := rfl
@[simp] theorem sendBit_rxActive (b : Bool) (s : State) : (s.sendBit b).rxActive = s.rxActive := rfl
@[simp] theorem sendBit_rxReady (b : Bool) (s : State) : (s.sendBit b).rxReady = s.rxReady := rfl
@[simp] theorem sendBit_ramp (b : Bool) (s : State) : (s.sendBit b).ramp = s.ramp := rfl
@[simp] theorem sendBit_integ (b : Bool) (s : State) : (s.sendBit b).integ = s.integ := rfl
@[simp] theorem sendBit_lastSample (b : Bool) (s : State) : (s.sendBit b).lastSample = s.lastSample := rfl
@[simp] theorem sendBit_hist (b : Bool) (s : State) : (s.sendBit b).hist = s.hist := rfl
@[simp] theorem sendBit_bitCount (b : Bool) (s : State) : (s.sendBit b).bitCount = s.bitCount := rfl
@[simp] theorem sendBit_bufLen (b : Bool) (s : State) : (s.sendBit b).bufLen = s.bufLen := rfl
@[simp] theorem sendBit_expLen (b : Bool) (s : State) : (s.sendBit b).expLen = s.expLen := rfl
@[simp] theorem sendBit_rxBuf (b : Bool) (s : State) : (s.sendBit b).rxBuf = s.rxBuf := rfl
@[simp] theorem sendBit_txActive (b : Bool) (s : State) : (s.sendBit b).txActive = s.txActive := rfl
@[simp] theorem sendBit_txSample (b : Bool) (s : State) : (s.sendBit b).txSample = s.txSample := rfl
@[simp] theorem sendBit_txBit (b : Bool) (s : State) : (s.sendBit b).txBit = if s.endsEntry then 0 else s.txBit + 1 := rfl
@[simp] theorem sendBit_txIndex (b : Bool) (s : State) : (s.sendBit b).txIndex = if s.endsEntry then s.txIndex + 1 else s.txIndex := rfl
@[simp] theorem sendBit_txLen (b : Bool) (s : State) : (s.sendBit b).txLen = s.txLen := rfl
@[simp] theorem sendBit_txOut (b : Bool) (s : State) : (s.sendBit b).txOut = b := rfl
@[simp] theorem sendBit_txBuf (b : Bool) (s : State) : (s.sendBit b).txBuf = s.txBuf := rfl
@[simp] theorem sendBit_resp (b : Bool) (s : State) : (s.sendBit b).resp = s.resp := rfl
@[simp] theorem sendBit_inputs (b : Bool) (s : State) : (s.sendBit b).inputs = s.inputs := rfl
@[simp] theorem sendBit_resets (b : Bool) (s : State) : (s.sendBit b).resets = s.resets := rfl
@[simp] theorem sendBit_draws (b : Bool) (s : State) : (s.sendBit b).draws = s.draws := rfl

/-! ### `advancePhase` -/

@[simp] theorem advancePhase_params (x : Bool) (s : State) : (s.advancePhase x).params = s.params := rfl
@[simp] theorem advancePhase_rxEnabled (x : Bool) (s : State) : (s.advancePhase x).rxEnabled = s.rxEnabled := rfl
@[simp] theorem advancePhase_rxActive (x : Bool) (s : State) : (s.advancePhase x).rxActive = s.rxActive := rfl
@[simp] theorem advancePhase_rxReady (x : Bool) (s : State) : (s.advancePhase x).rxReady = s.rxReady := rfl
@[simp] theorem advancePhase_ramp (x : Bool) (s : State) : (s.advancePhase x).ramp = BitVec.ofNat 16 (s.rampSum x) := rfl
@[simp] theorem advancePhase_integ (x : Bool) (s : State) : (s.advancePhase x).integ = BitVec.ofNat 8 (s.integSum x) := rfl
@[simp] theorem advancePhase_lastSample (x : Bool) (s : State) : (s.advancePhase x).lastSample = x := rfl
@[simp] theorem advancePhase_hist (x : Bool) (s : State) : (s.advancePhase x).hist = s.hist := rfl
@[simp] theorem advancePhase_bitCount (x : Bool) (s : State) : (s.advancePhase x).bitCount = s.bitCount := rfl
@[simp] theorem advancePhase_bufLen (x : Bool) (s : State) : (s.advancePhase x).bufLen = s.bufLen := rfl
@[simp] theorem advancePhase_expLen (x : Bool) (s : State) : (s.advancePhase x).expLen = s.expLen := rfl
@[simp] theorem advancePhase_rxBuf (x : Bool) (s : State) : (s.advancePhase x).rxBuf = s.rxBuf := rfl
@[simp] theorem advancePhase_txActive (x : Bool) (s : State) : (s.advancePhase x).txActive = s.txActive := rfl
@[simp] theorem advancePhase_txSample (x : Bool) (s : State) : (s.advancePhase x).txSample = s.txSample := rfl
@[simp] theorem advancePhase_txBit (x : Bool) (s : State) : (s.advancePhase x).txBit = s.txBit := rfl
@[simp] theorem advancePhase_txIndex (x : Bool) (s : State) : (s.advancePhase x).txIndex = s.txIndex := rfl
@[simp] theorem advancePhase_txLen (x : Bool) (s : State) : (s.advancePhase x).txLen = s.txLen := rfl
@[simp] theorem advancePhase_txOut (x : Bool) (s : State) : (s.advancePhase x).txOut = s.txOut := rfl
@[simp] theorem advancePhase_txBuf (x : Bool) (s : State) : (s.advancePhase x).txBuf = s.txBuf := rfl
@[simp] theorem advancePhase_resp (x : Bool) (s : State) : (s.advancePhase x).resp = s.resp := rfl
@[simp] theorem advancePhase_inputs (x : Bool) (s : State) : (s.advancePhase x).inputs = s.inputs := rfl
@[simp] theorem advancePhase_resets (x : Bool) (s : State) : (s.advancePhase x).resets = s.resets := rfl
@[simp] theorem advancePhase_draws (x : Bool) (s : State) : (s.advancePhase x).draws = s.draws := rfl

/-! ### `shiftBit` -/

@[simp] theorem shiftBit_params (x : Bool) (s : State) : (s.shiftBit x).params = s.params := rfl
@[simp] theorem shiftBit_rxEnabled (x : Bool) (s : State) : (s.shiftBit x).rxEnabled = s.rxEnabled := rfl
@[simp] theorem shiftBit_rxActive (x : Bool) (s : State) : (s.shiftBit x).rxActive = s.rxActive := rfl
@[simp] theorem shiftBit_rxReady (x : Bool) (s : State) : (s.shiftBit x).rxReady = s.rxReady := rfl
@[simp] theorem shiftBit_ramp (x : Bool) (s : State) : (s.shiftBit x).ramp = BitVec.ofNat 16 (s.rampSum x - s.params.rampMax) := rfl
@[simp] theorem shiftBit_integ (x : Bool) (s : State) : (s.shiftBit x).integ = 0 := rfl
@[simp] theorem shiftBit_lastSample (x : Bool) (s : State) : (s.shiftBit x).lastSample = x := rfl
@[simp] theorem shiftBit_hist (x : Bool) (s : State) : (s.shiftBit x).hist = shiftIn s.params s.hist (s.decidedBit x) := rfl
@[simp] theorem shiftBit_bitCount (x : Bool) (s : State) : (s.shiftBit x).bitCount = s.bitCount := rfl
@[simp] theorem shiftBit_bufLen (x : Bool) (s : State) : (s.shiftBit x).bufLen = s.bufLen := rfl
@[simp] theorem shiftBit_expLen (x : Bool) (s : State) : (s.shiftBit x).expLen = s.expLen := rfl
@[simp] theorem shiftBit_rxBuf (x : Bool) (s : State) : (s.shiftBit x).rxBuf = s.rxBuf := rfl
@[simp] theorem shiftBit_txActive (x : Bool) (s : State) : (s.shiftBit x).txActive = s.txActive := rfl
@[simp] theorem shiftBit_txSample (x : Bool) (s : State) : (s.shiftBit x).txSample = s.txSample := rfl
@[simp] theorem shiftBit_txBit (x : Bool) (s : State) : (s.shiftBit x).txBit = s.txBit := rfl
@[simp] theorem shiftBit_txIndex (x : Bool) (s : State) : (s.shiftBit x).txIndex = s.txIndex := rfl
@[simp] theorem shiftBit_txLen (x : Bool) (s : State) : (s.shiftBit x).txLen = s.txLen := rfl
@[simp] theorem shiftBit_txOut (x : Bool) (s : State) : (s.shiftBit x).txOut = s.txOut := rfl
@[simp] theorem shiftBit_txBuf (x : Bool) (s : State) : (s.shiftBit x).txBuf = s.txBuf := rfl
@[simp] theorem shiftBit_resp (x : Bool) (s : State) : (s.shiftBit x).resp = s.resp := rfl
@[simp] theorem shiftBit_inputs (x : Bool) (s : State) : (s.shiftBit x).inputs = s.inputs := rfl
@[simp] theorem shiftBit_resets (x : Bool) (s : State) : (s.shiftBit x).resets = s.resets := rfl
@[simp] theorem shiftBit_draws (x : Bool) (s : State) : (s.shiftBit x).draws = s.draws := rfl

/-! ### `openFrame` -/

@[simp] theorem openFrame_params (s : State) : (s.openFrame).params = s.params := rfl
@[simp] theorem openFrame_rxEnabled (s : State) : (s.openFrame).rxEnabled = s.rxEnabled := rfl
@[simp] theorem openFrame_rxActive (s : State) : (s.openFrame).rxActive = true := rfl
@[simp] theorem openFrame_rxReady (s : State) : (s.openFrame).rxReady = false := rfl
@[simp] theorem openFrame_ramp (s : State) : (s.openFrame).ramp = s.ramp := rfl
@[simp] theorem openFrame_integ (s : State) : (s.openFrame).integ = s.integ := rfl
@[simp] theorem openFrame_lastSample (s : State) : (s.openFrame).lastSample = s.lastSample := rfl
@[simp] theorem openFrame_hist (s : State) : (s.openFrame).hist = s.hist := rfl
@[simp] theorem openFrame_bitCount (s : State) : (s.openFrame).bitCount = 0 := rfl
@[simp] theorem openFrame_bufLen (s : State) : (s.openFrame).bufLen = 0 := rfl
@[simp] theorem openFrame_expLen (s : State) : (s.openFrame).expLen = 0 := rfl
@[simp] theorem openFrame_rxBuf (s : State) : (s.openFrame).rxBuf = s.rxBuf := rfl
@[simp] theorem openFrame_txActive (s : State) : (s.openFrame).txActive = s.txActive := rfl
@[simp] theorem openFrame_txSample (s : State) : (s.openFrame).txSample = s.txSample := rfl
@[simp] theorem openFrame_txBit (s : State) : (s.openFrame).txBit = s.txBit := rfl
@[simp] theorem openFrame_txIndex (s : State) : (s.openFrame).txIndex = s.txIndex := rfl
@[simp] theorem openFrame_txLen (s : State) : (s.openFrame).txLen = s.txLen := rfl
@[simp] theorem openFrame_txOut (s : State) : (s.openFrame).txOut = s.txOut := rfl
@[simp] theorem openFrame_txBuf (s : State) : (s.openFrame).txBuf = s.txBuf := rfl
@[simp] theorem openFrame_resp (s : State) : (s.openFrame).resp = s.resp := rfl
@[simp] theorem openFrame_inputs (s : State) : (s.openFrame).inputs = s.inputs := rfl
@[simp] theorem openFrame_resets (s : State) : (s.openFrame).resets = s.resets := rfl
@[simp] theorem openFrame_draws (s : State) : (s.openFrame).draws = s.draws := rfl

/-! ### `countBit` -/

@[simp] theorem countBit_params (s : State) : (s.countBit).params = s.params := rfl
@[simp] theorem countBit_rxEnabled (s : State) : (s.countBit).rxEnabled = s.rxEnabled := rfl
@[simp] theorem countBit_rxActive (s : State) : (s.countBit).rxActive = s.rxActive := rfl
@[simp] theorem countBit_rxReady (s : State) : (s.countBit).rxReady = s.rxReady := rfl
@[simp] theorem countBit_ramp (s : State) : (s.countBit).ramp = s.ramp := rfl
@[simp] theorem countBit_integ (s : State) : (s.countBit).integ = s.integ := rfl
@[simp] theorem countBit_lastSample (s : State) : (s.countBit).lastSample = s.lastSample := rfl
@[simp] theorem countBit_hist (s : State) : (s.countBit).hist = s.hist := rfl
@[simp] theorem countBit_bitCount (s : State) : (s.countBit).bitCount = s.bitCount + 1 := rfl
@[simp] theorem countBit_bufLen (s : State) : (s.countBit).bufLen = s.bufLen := rfl
@[simp] theorem countBit_expLen (s : State) : (s.countBit).expLen = s.expLen := rfl
@[simp] theorem countBit_rxBuf (s : State) : (s.countBit).rxBuf = s.rxBuf := rfl
@[simp] theorem countBit_txActive (s : State) : (s.countBit).txActive = s.txActive := rfl
@[simp] theorem countBit_txSample (s : State) : (s.countBit).txSample = s.txSample := rfl
@[simp] theorem countBit_txBit (s : State) : (s.countBit).txBit = s.txBit := rfl
@[simp] theorem countBit_txIndex (s : State) : (s.countBit).txIndex = s.txIndex := rfl
@[simp] theorem countBit_txLen (s : State) : (s.countBit).txLen = s.txLen := rfl
@[simp] theorem countBit_txOut (s : State) : (s.countBit).txOut = s.txOut := rfl
@[simp] theorem countBit_txBuf (s : State) : (s.countBit).txBuf = s.txBuf := rfl
@[simp] theorem countBit_resp (s : State) : (s.countBit).resp = s.resp := rfl
@[simp] theorem countBit_inputs (s : State) : (s.countBit).inputs = s.inputs := rfl
@[simp] theorem countBit_resets (s : State) : (s.countBit).resets = s.resets := rfl
@[simp] theorem countBit_draws (s : State) : (s.countBit).draws = s.draws := rfl

/-! ### `takeByte` -/

@[simp] theorem takeByte_params (s : State) : (s.takeByte).params = s.params := rfl
@[simp] theorem takeByte_rxEnabled (s : State) : (s.takeByte).rxEnabled = s.rxEnabled := rfl
@[simp] theorem takeByte_rxActive (s : State) : (s.takeByte).rxActive = s.rxActive := rfl
@[simp] theorem takeByte_rxReady (s : State) : (s.takeByte).rxReady = s.rxReady := rfl
@[simp] theorem takeByte_ramp (s : State) : (s.takeByte).ramp = s.ramp := rfl
@[simp] theorem takeByte_integ (s : State) : (s.takeByte).integ = s.integ := rfl
@[simp] theorem takeByte_lastSample (s : State) : (s.takeByte).lastSample = s.lastSample := rfl
@[simp] theorem takeByte_hist (s : State) : (s.takeByte).hist = s.hist := rfl
@[simp] theorem takeByte_bitCount (s : State) : (s.takeByte).bitCount = 0 := rfl
@[simp] theorem takeByte_bufLen (s : State) : (s.takeByte).bufLen = s.bufLen := rfl
@[simp] theorem takeByte_expLen (s : State) : (s.takeByte).expLen = s.expLen := rfl
@[simp] theorem takeByte_rxBuf (s : State) : (s.takeByte).rxBuf = s.rxBuf := rfl
@[simp] theorem takeByte_txActive (s : State) : (s.takeByte).txActive = s.txActive := rfl
@[simp] theorem takeByte_txSample (s : State) : (s.takeByte).txSample = s.txSample := rfl
@[simp] theorem takeByte_txBit (s : State) : (s.takeByte).txBit = s.txBit := rfl
@[simp] theorem takeByte_txIndex (s : State) : (s.takeByte).txIndex = s.txIndex := rfl
@[simp] theorem takeByte_txLen (s : State) : (s.takeByte).txLen = s.txLen := rfl
@[simp] theorem takeByte_txOut (s : State) : (s.takeByte).txOut = s.txOut := rfl
@[simp] theorem takeByte_txBuf (s : State) : (s.takeByte).txBuf = s.txBuf := rfl
@[simp] theorem takeByte_resp (s : State) : (s.takeByte).resp = s.resp := rfl
@[simp] theorem takeByte_inputs (s : State) : (s.takeByte).inputs = s.inputs := rfl
@[simp] theorem takeByte_resets (s : State) : (s.takeByte).resets = s.resets := rfl
@[simp] theorem takeByte_draws (s : State) : (s.takeByte).draws = s.draws + 2 := rfl

/-! ### `noteLength` -/

@[simp] theorem noteLength_params (d : Byte) (s : State) : (s.noteLength d).params = s.params := rfl
@[simp] theorem noteLength_rxEnabled (d : Byte) (s : State) : (s.noteLength d).rxEnabled = s.rxEnabled := rfl
@[simp] theorem noteLength_rxActive (d : Byte) (s : State) : (s.noteLength d).rxActive = s.rxActive := rfl
@[simp] theorem noteLength_rxReady (d : Byte) (s : State) : (s.noteLength d).rxReady = s.rxReady := rfl
@[simp] theorem noteLength_ramp (d : Byte) (s : State) : (s.noteLength d).ramp = s.ramp := rfl
@[simp] theorem noteLength_integ (d : Byte) (s : State) : (s.noteLength d).integ = s.integ := rfl
@[simp] theorem noteLength_lastSample (d : Byte) (s : State) : (s.noteLength d).lastSample = s.lastSample := rfl
@[simp] theorem noteLength_hist (d : Byte) (s : State) : (s.noteLength d).hist = s.hist := rfl
@[simp] theorem noteLength_bitCount (d : Byte) (s : State) : (s.noteLength d).bitCount = s.bitCount := rfl
@[simp] theorem noteLength_bufLen (d : Byte) (s : State) : (s.noteLength d).bufLen = s.bufLen := rfl
@[simp] theorem noteLength_expLen (d : Byte) (s : State) : (s.noteLength d).expLen = d := rfl
@[simp] theorem noteLength_rxBuf (d : Byte) (s : State) : (s.noteLength d).rxBuf = s.rxBuf := rfl
@[simp] theorem noteLength_txActive (d : Byte) (s : State) : (s.noteLength d).txActive = s.txActive := rfl
@[simp] theorem noteLength_txSample (d : Byte) (s : State) : (s.noteLength d).txSample = s.txSample := rfl
@[simp] theorem noteLength_txBit (d : Byte) (s : State) : (s.noteLength d).txBit = s.txBit := rfl
@[simp] theorem noteLength_txIndex (d : Byte) (s : State) : (s.noteLength d).txIndex = s.txIndex := rfl
@[simp] theorem noteLength_txLen (d : Byte) (s : State) : (s.noteLength d).txLen = s.txLen := rfl
@[simp] theorem noteLength_txOut (d : Byte) (s : State) : (s.noteLength d).txOut = s.txOut := rfl
@[simp] theorem noteLength_txBuf (d : Byte) (s : State) : (s.noteLength d).txBuf = s.txBuf := rfl
@[simp] theorem noteLength_resp (d : Byte) (s : State) : (s.noteLength d).resp = s.resp := rfl
@[simp] theorem noteLength_inputs (d : Byte) (s : State) : (s.noteLength d).inputs = s.inputs := rfl
@[simp] theorem noteLength_resets (d : Byte) (s : State) : (s.noteLength d).resets = s.resets := rfl
@[simp] theorem noteLength_draws (d : Byte) (s : State) : (s.noteLength d).draws = s.draws := rfl

/-! ### `abandonFrame` -/

@[simp] theorem abandonFrame_params (s : State) : (s.abandonFrame).params = s.params := rfl
@[simp] theorem abandonFrame_rxEnabled (s : State) : (s.abandonFrame).rxEnabled = s.rxEnabled := rfl
@[simp] theorem abandonFrame_rxActive (s : State) : (s.abandonFrame).rxActive = false := rfl
@[simp] theorem abandonFrame_rxReady (s : State) : (s.abandonFrame).rxReady = s.rxReady := rfl
@[simp] theorem abandonFrame_ramp (s : State) : (s.abandonFrame).ramp = s.ramp := rfl
@[simp] theorem abandonFrame_integ (s : State) : (s.abandonFrame).integ = s.integ := rfl
@[simp] theorem abandonFrame_lastSample (s : State) : (s.abandonFrame).lastSample = s.lastSample := rfl
@[simp] theorem abandonFrame_hist (s : State) : (s.abandonFrame).hist = s.hist := rfl
@[simp] theorem abandonFrame_bitCount (s : State) : (s.abandonFrame).bitCount = s.bitCount := rfl
@[simp] theorem abandonFrame_bufLen (s : State) : (s.abandonFrame).bufLen = s.bufLen := rfl
@[simp] theorem abandonFrame_expLen (s : State) : (s.abandonFrame).expLen = s.expLen := rfl
@[simp] theorem abandonFrame_rxBuf (s : State) : (s.abandonFrame).rxBuf = s.rxBuf := rfl
@[simp] theorem abandonFrame_txActive (s : State) : (s.abandonFrame).txActive = s.txActive := rfl
@[simp] theorem abandonFrame_txSample (s : State) : (s.abandonFrame).txSample = s.txSample := rfl
@[simp] theorem abandonFrame_txBit (s : State) : (s.abandonFrame).txBit = s.txBit := rfl
@[simp] theorem abandonFrame_txIndex (s : State) : (s.abandonFrame).txIndex = s.txIndex := rfl
@[simp] theorem abandonFrame_txLen (s : State) : (s.abandonFrame).txLen = s.txLen := rfl
@[simp] theorem abandonFrame_txOut (s : State) : (s.abandonFrame).txOut = s.txOut := rfl
@[simp] theorem abandonFrame_txBuf (s : State) : (s.abandonFrame).txBuf = s.txBuf := rfl
@[simp] theorem abandonFrame_resp (s : State) : (s.abandonFrame).resp = s.resp := rfl
@[simp] theorem abandonFrame_inputs (s : State) : (s.abandonFrame).inputs = s.inputs := rfl
@[simp] theorem abandonFrame_resets (s : State) : (s.abandonFrame).resets = s.resets := rfl
@[simp] theorem abandonFrame_draws (s : State) : (s.abandonFrame).draws = s.draws := rfl

/-! ### `storeByte` -/

@[simp] theorem storeByte_params (d : Byte) (s : State) : (s.storeByte d).params = s.params := rfl
@[simp] theorem storeByte_rxEnabled (d : Byte) (s : State) : (s.storeByte d).rxEnabled = s.rxEnabled := rfl
@[simp] theorem storeByte_rxActive (d : Byte) (s : State) : (s.storeByte d).rxActive = (s.rxActive && !s.completesFrame) := rfl
@[simp] theorem storeByte_rxReady (d : Byte) (s : State) : (s.storeByte d).rxReady = (s.rxReady || s.completesFrame) := rfl
@[simp] theorem storeByte_ramp (d : Byte) (s : State) : (s.storeByte d).ramp = s.ramp := rfl
@[simp] theorem storeByte_integ (d : Byte) (s : State) : (s.storeByte d).integ = s.integ := rfl
@[simp] theorem storeByte_lastSample (d : Byte) (s : State) : (s.storeByte d).lastSample = s.lastSample := rfl
@[simp] theorem storeByte_hist (d : Byte) (s : State) : (s.storeByte d).hist = s.hist := rfl
@[simp] theorem storeByte_bitCount (d : Byte) (s : State) : (s.storeByte d).bitCount = s.bitCount := rfl
@[simp] theorem storeByte_bufLen (d : Byte) (s : State) : (s.storeByte d).bufLen = s.bufLen + 1 := rfl
@[simp] theorem storeByte_expLen (d : Byte) (s : State) : (s.storeByte d).expLen = s.expLen := rfl
@[simp] theorem storeByte_rxBuf (d : Byte) (s : State) : (s.storeByte d).rxBuf = Memory.write s.rxBuf s.bufLen.toNat d := rfl
@[simp] theorem storeByte_txActive (d : Byte) (s : State) : (s.storeByte d).txActive = s.txActive := rfl
@[simp] theorem storeByte_txSample (d : Byte) (s : State) : (s.storeByte d).txSample = s.txSample := rfl
@[simp] theorem storeByte_txBit (d : Byte) (s : State) : (s.storeByte d).txBit = s.txBit := rfl
@[simp] theorem storeByte_txIndex (d : Byte) (s : State) : (s.storeByte d).txIndex = s.txIndex := rfl
@[simp] theorem storeByte_txLen (d : Byte) (s : State) : (s.storeByte d).txLen = s.txLen := rfl
@[simp] theorem storeByte_txOut (d : Byte) (s : State) : (s.storeByte d).txOut = s.txOut := rfl
@[simp] theorem storeByte_txBuf (d : Byte) (s : State) : (s.storeByte d).txBuf = s.txBuf := rfl
@[simp] theorem storeByte_resp (d : Byte) (s : State) : (s.storeByte d).resp = s.resp := rfl
@[simp] theorem storeByte_inputs (d : Byte) (s : State) : (s.storeByte d).inputs = s.inputs := rfl
@[simp] theorem storeByte_resets (d : Byte) (s : State) : (s.storeByte d).resets = s.resets := rfl
@[simp] theorem storeByte_draws (d : Byte) (s : State) : (s.storeByte d).draws = s.draws := rfl

end Sys2Proof.Machine.State
end

