-- ==== Sys2Proof/Laws/Memory.lean ====
section
/-! SUPPORT. The laws of a buffer's memory: read after write, and the canonical form. -/

namespace Sys2Proof.Machine

@[simp] theorem Memory.read_nil (i : Nat) : Memory.read [] i = none := rfl

@[simp] theorem Memory.wf_nil : Memory.wf [] = true := rfl

/-- A read after a write gives the byte written at its index and the old byte elsewhere. -/
theorem Memory.read_write (m : Memory) (i j : Nat) (v : Byte) :
    Memory.read (Memory.write m i v) j = if j = i then some v else Memory.read m j := by
  induction m with
  | nil => simp [Memory.write, Memory.read, eq_comm]
  | cons c m ih =>
    simp only [Memory.write]
    split_ifs with h₁ h₂ h₃ <;> simp_all [Memory.read] <;> grind

@[simp] theorem Memory.read_write_same (m : Memory) (i : Nat) (v : Byte) :
    Memory.read (Memory.write m i v) i = some v := by simp [Memory.read_write]

theorem Memory.read_write_other (m : Memory) {i j : Nat} (v : Byte) (h : j ≠ i) :
    Memory.read (Memory.write m i v) j = Memory.read m j := by simp [Memory.read_write, h]

/-- In a canonical memory everything listed after a cell has a greater index. -/
theorem Memory.wf_cons (c : Host.Cell) (m : Memory) :
    Memory.wf (c :: m) = true ↔ (∀ d ∈ m, c.1 < d.1) ∧ Memory.wf m = true := by
  induction m generalizing c with
  | nil => simp [Memory.wf]
  | cons d m ih =>
    simp only [Memory.wf, Bool.and_eq_true, decide_eq_true_eq, ih, List.mem_cons, forall_eq_or_imp]
    grind

/-- Every cell of a memory after a write is the written one or an old one. -/
theorem Memory.mem_write {m : Memory} {i : Nat} {v : Byte} {d : Host.Cell} (h : d ∈ Memory.write m i v) :
    d = (i, v) ∨ d ∈ m := by
  induction m with
  | nil => simpa [Memory.write] using h
  | cons c m ih =>
    simp only [Memory.write] at h
    split_ifs at h <;> simp_all <;> grind

/-- Writing keeps the canonical form. -/
theorem Memory.write_wf {m : Memory} (h : Memory.wf m = true) (i : Nat) (v : Byte) :
    Memory.wf (Memory.write m i v) = true := by
  induction m with
  | nil => rfl
  | cons c m ih =>
    obtain ⟨hc, hm⟩ := (Memory.wf_cons c m).1 h
    simp only [Memory.write]
    split_ifs with h₁ h₂
    · refine (Memory.wf_cons _ _).2 ⟨?_, h⟩
      rintro d (_ | ⟨_, hd⟩)
      · exact h₁
      · exact h₁.trans (hc d hd)
    · exact (Memory.wf_cons _ _).2 ⟨fun d hd => h₂ ▸ hc d hd, hm⟩
    · refine (Memory.wf_cons _ _).2 ⟨fun d hd => ?_, ih hm⟩
      rcases Memory.mem_write hd with rfl | hd
      · simp; omega
      · exact hc d hd

/-- Nothing is read below the first cell of a canonical memory. -/
theorem Memory.read_lt_head {c : Host.Cell} {m : Memory} (h : ∀ d ∈ m, c.1 < d.1) {i : Nat} (hi : i ≤ c.1) :
    Memory.read m i = none := by
  induction m with
  | nil => rfl
  | cons d m ih =>
    have := h d (by simp)
    rw [Memory.read, if_neg (by omega)]
    exact ih fun e he => h e (by simp [he])

/-- Canonical memories that read alike are equal. -/
theorem Memory.ext_of_wf {m n : Memory} (hm : Memory.wf m = true) (hn : Memory.wf n = true)
    (h : ∀ i, Memory.read m i = Memory.read n i) : m = n := by
  induction m generalizing n with
  | nil =>
    cases n with
    | nil => rfl
    | cons d n => simpa [Memory.read] using h d.1
  | cons c m ih =>
    obtain ⟨hc, hm⟩ := (Memory.wf_cons c m).1 hm
    cases n with
    | nil => simpa [Memory.read] using h c.1
    | cons d n =>
      obtain ⟨hd, hn⟩ := (Memory.wf_cons d n).1 hn
      have e : c.1 = d.1 := by
        rcases Nat.lt_trichotomy c.1 d.1 with l | e | l
        · have := h c.1
          rw [Memory.read, if_pos rfl, Memory.read, if_neg (by omega), Memory.read_lt_head hd l.le] at this
          cases this
        · exact e
        · have := h d.1
          rw [Memory.read, if_neg (by omega), Memory.read_lt_head hc l.le, Memory.read, if_pos rfl] at this
          cases this
      have e₂ : c.2 = d.2 := by simpa [Memory.read, e] using h c.1
      have hr : ∀ i, Memory.read m i = Memory.read n i := by
        intro i
        by_cases hi : i ≤ c.1
        · rw [Memory.read_lt_head hc hi, Memory.read_lt_head hd (e ▸ hi)]
        · have := h i
          rwa [Memory.read, if_neg (by omega), Memory.read, if_neg (by omega)] at this
      rw [ih hm hn hr, Prod.ext e e₂]

/-- What a byte of a buffer is depends on the buffer's memory and the reset number only. -/
theorem State.byteAt_congr {s t : State} (b : Buffer) (hm : t.memory b = s.memory b) (hr : t.resets = s.resets)
    (i : Nat) : t.byteAt b i = s.byteAt b i := by
  simp [State.byteAt, hm, hr]

end Sys2Proof.Machine
end

