-- ==== Sys2Proof/Laws/Parameters.lean ====
section
/-! SUPPORT. What a well-formed parameter set gives (00_scope.md R11), said once as arithmetic, and the widths that follow
from it. -/

namespace Sys2Proof

/-- The arithmetic of a well-formed parameter set. -/
structure Params.Facts (p : Params) : Prop where
  oversampling : p.oversampling = 8
  one_le_symbolBits : 1 ≤ p.symbolBits
  symbolBits_le : p.symbolBits ≤ 8
  startSymbol_lt : p.startSymbol.toNat < 2 ^ (2 * p.symbolBits)
  rampMax_pos : 0 < p.rampMax
  rampMax_eq : p.rampMax = 8 * p.rampInc
  transition_eq : p.rampTransition = p.rampMax / 2
  one_le_retard : 1 ≤ p.rampIncRetard
  retard_le : p.rampIncRetard ≤ p.rampInc
  inc_le : p.rampInc ≤ p.rampIncAdvance
  advance_le : p.rampIncAdvance ≤ p.rampMax
  ramp_fits : p.rampMax + p.rampIncAdvance ≤ 65535
  integ_fits : Params.ceilDiv p.rampMax p.rampIncRetard ≤ 255
  one_le_threshold : 1 ≤ p.integThreshold
  one_le_messageMin : 1 ≤ p.messageMin
  messageMin_le : p.messageMin ≤ p.messageMax
  messageMax_le : p.messageMax ≤ p.rxBufCap
  rxBufCap_le : p.rxBufCap ≤ 255
  message_fits : p.preambleMax + 2 * p.messageMax ≤ p.txBufCap
  txBufCap_le : p.txBufCap ≤ 255

theorem Params.facts {p : Params} (h : p.wf = true) : p.Facts := by
  simp only [wf, Bool.and_eq_true, oversamplingOk, symbolBitsOk, startSymbolOk, rampOk, incrementsOk, rampFits,
    integFits, thresholdOk, messageOk, txBufOk, decide_eq_true_eq] at h
  obtain ⟨⟨⟨⟨⟨⟨⟨⟨⟨⟨⟨⟨h1, h2⟩, h3⟩, -⟩, -⟩, h6⟩, h7⟩, h8⟩, h9⟩, h10⟩, h11⟩, h12⟩, -⟩ := h
  obtain ⟨ha, hb, hc, hd⟩ := h6
  rw [h1] at hb hc
  obtain ⟨k, hk⟩ := hb
  constructor <;> first | assumption | omega

/-- Whatever fits below a dividend is at most the rounded-up quotient. -/
theorem Params.le_ceilDiv {a b c : Nat} (hb : 1 ≤ b) (h : c * b ≤ a) : c ≤ Params.ceilDiv a b := by
  unfold Params.ceilDiv
  rw [Nat.le_div_iff_mul_le (by omega)]
  omega

namespace Machine

/-- The window keeps its width when a bit is shifted in. -/
theorem State.shiftIn_lt {p : Params} (hp : p.Facts) {h : Word} (hh : h.toNat < 2 ^ (2 * p.symbolBits)) (b : Bool) :
    (State.shiftIn p h b).toNat < 2 ^ (2 * p.symbolBits) := by
  have h1 := hp.one_le_symbolBits
  unfold State.shiftIn
  generalize p.symbolBits = W at *
  rw [BitVec.toNat_or]
  apply Nat.or_lt_two_pow
  · simp [Nat.shiftRight_eq_div_pow]
    omega
  · rw [show 2 ^ (2 * W) = 2 ^ (2 * W - 1) * 2 by rw [← pow_succ]; congr 1; omega]
    have := Nat.two_pow_pos (2 * W - 1)
    cases b <;> simp [BitVec.toNat_shiftLeft, Nat.shiftLeft_eq]
    exact lt_of_le_of_lt (Nat.mod_le _ _) (by omega)

/-- The increment lies between the retard and the advance increment. -/
theorem State.rampStep_bounds {s : State} (hp : s.params.Facts) (x : Bool) :
    s.params.rampIncRetard ≤ s.rampStep x ∧ s.rampStep x ≤ s.params.rampIncAdvance := by
  have := hp.retard_le
  have := hp.inc_le
  unfold State.rampStep
  split_ifs <;> omega

/-- A byte is listed after a write exactly if it was written now or listed before. -/
theorem Memory.read_write_isSome (m : Memory) (i j : Nat) (v : Byte) :
    (Memory.read (Memory.write m i v) j).isSome = true ↔ j = i ∨ (Memory.read m j).isSome = true := by
  rw [Memory.read_write]
  split_ifs <;> simp_all

end Machine

end Sys2Proof
end

