-- ==== Sys2Proof/Laws/Ops.lean ====
section
/-! SUPPORT. What the shared operations can do, said once. -/

namespace Sys2Proof.Machine

@[simp] theorem guarded_of_wf {s : State} (h : s.params.wf = true) (o : Host.Outcome State Fault Refusal) :
    guarded s o = o := if_pos h

@[simp] theorem guarded_of_not_wf {s : State} (h : s.params.wf = false) (o : Host.Outcome State Fault Refusal) :
    guarded s o = .refused .illFormedParameters := by simp [guarded, h]

theorem guarded_eq_next {s t : State} {o : Host.Outcome State Fault Refusal} :
    guarded s o = .next t ↔ s.params.wf = true ∧ o = .next t := by
  unfold guarded
  split <;> simp_all

@[simp] theorem complete_of_wf {s : State} (h : s.params.wf = true) (t : State) : complete s t = .next t := if_pos h

@[simp] theorem complete_of_not_wf {s : State} (h : s.params.wf = false) (t : State) :
    complete s t = .refused .illFormedParameters := guarded_of_not_wf h _

theorem complete_eq_next {s t u : State} : complete s t = .next u ↔ s.params.wf = true ∧ u = t := by
  rw [complete, guarded_eq_next, Host.Outcome.next.injEq, eq_comm (a := t)]

@[simp] theorem andThen_next {α β : Type} (t : α) (k : α → Host.Outcome β Fault Refusal) :
    andThen (.next t) k = k t := rfl

@[simp] theorem andThen_fault {α β : Type} (r : Fault) (k : α → Host.Outcome β Fault Refusal) :
    andThen (.fault r) k = .fault r := rfl

@[simp] theorem andThen_refused {α β : Type} (r : Refusal) (k : α → Host.Outcome β Fault Refusal) :
    andThen (.refused r) k = .refused r := rfl

theorem andThen_eq_next {α β : Type} {o : Host.Outcome α Fault Refusal} {k : α → Host.Outcome β Fault Refusal}
    {u : β} : andThen o k = .next u ↔ ∃ t, o = .next t ∧ k t = .next u := by
  cases o <;> simp

/-- A CSR exists exactly for the numbers 0 to 7. -/
theorem State.csr_isSome (s : State) (n : Byte) : (s.csr n).isSome = true ↔ n.toNat < 8 := by
  unfold State.csr
  split <;> simp_all
  omega

theorem State.csr_eq_none {s : State} {n : Byte} (h : 8 ≤ n.toNat) : s.csr n = none := by
  have := s.csr_isSome n
  cases hc : s.csr n <;> simp_all
  omega

end Sys2Proof.Machine
end

