-- ==== Sys2Proof/Laws/Tick.lean ====
section
/-! SUPPORT. What the two halves of a tick can do: one inversion lemma per half and per stage, and what each half leaves
alone. Later proofs cite these and unfold no stage again. -/

namespace Sys2Proof.Machine

/-- The four things the transmit half can do. -/
theorem txHalf_cases {s t : State} (h : txHalf s = .next t) :
    (s.txActive = false ∧ t = s) ∨
    (s.txActive = true ∧ s.isTxBitTick = false ∧ t = s.countTxSample) ∨
    (s.txActive = true ∧ s.isTxBitTick = true ∧ s.allSent = true ∧ t = s.finishTx) ∨
    (s.txActive = true ∧ s.isTxBitTick = true ∧ s.allSent = false ∧
      ∃ b, s.txSelectedBit = some b ∧ t = (s.sendBit b).countTxSample) := by
  unfold txHalf at h
  cases ha : s.txActive <;> cases hb : s.isTxBitTick <;> cases hc : s.allSent <;> cases hd : s.txSelectedBit <;>
    simp_all

/-- The transmit half leaves the receive group, the ports and the model's counters alone. -/
theorem txHalf_frame {s t : State} (h : txHalf s = .next t) :
    t.params = s.params ∧ t.rxEnabled = s.rxEnabled ∧ t.rxActive = s.rxActive ∧ t.rxReady = s.rxReady ∧
    t.ramp = s.ramp ∧ t.integ = s.integ ∧ t.lastSample = s.lastSample ∧ t.hist = s.hist ∧
    t.bitCount = s.bitCount ∧ t.bufLen = s.bufLen ∧ t.expLen = s.expLen ∧ t.rxBuf = s.rxBuf ∧
    t.txLen = s.txLen ∧ t.txBuf = s.txBuf ∧ t.resp = s.resp ∧ t.inputs = s.inputs ∧ t.resets = s.resets ∧
    t.draws = s.draws := by
  obtain ⟨-, rfl⟩ | ⟨-, -, rfl⟩ | ⟨-, -, -, rfl⟩ | ⟨-, -, -, b, -, rfl⟩ := txHalf_cases h <;> simp

/-- The two things a store can do. -/
theorem storeOrStop_eq_next {d : Byte} {s t : State} :
    storeOrStop d s = .next t ↔ s.bufLen.toNat < s.params.rxBufCap ∧ t = s.storeByte d := by
  unfold storeOrStop
  split <;> simp_all [eq_comm]

/-- The three things a decoded byte can do. -/
theorem receiveByte_cases {d : Byte} {s t : State} (h : receiveByte d s = .next t) :
    (s.bufLen = 0 ∧ State.lengthOk s.params d = false ∧ t = (s.noteLength d).abandonFrame) ∨
    (s.bufLen = 0 ∧ State.lengthOk s.params d = true ∧ s.bufLen.toNat < s.params.rxBufCap ∧
      t = (s.noteLength d).storeByte d) ∨
    (s.bufLen ≠ 0 ∧ s.bufLen.toNat < s.params.rxBufCap ∧ t = s.storeByte d) := by
  unfold receiveByte at h
  split_ifs at h with h₁ h₂
  · have := storeOrStop_eq_next.1 h
    simp_all
  · simp_all
  · have := storeOrStop_eq_next.1 h
    simp_all

/-- The three things a bit tick can do after the shift. -/
theorem receiveBit_cases {dHi dLo : Nibble} {s t : State} (h : receiveBit dHi dLo s = .next t) :
    (s.rxActive = false ∧ t = scanBit s) ∨
    (s.rxActive = true ∧ s.completesByte = false ∧ t = s.countBit) ∨
    (s.rxActive = true ∧ s.completesByte = true ∧
      receiveByte (decode8 s.params dHi dLo s.hist) s.takeByte = .next t) := by
  unfold receiveBit at h
  cases ha : s.rxActive <;> cases hb : s.completesByte <;> simp_all

/-- The three things the receive half can do. -/
theorem rxHalf_cases {busy x : Bool} {dHi dLo : Nibble} {s t : State} (h : rxHalf busy x dHi dLo s = .next t) :
    (s.rxRuns busy = false ∧ t = s) ∨
    (s.rxRuns busy = true ∧ s.isBitTick x = false ∧ t = s.advancePhase x) ∨
    (s.rxRuns busy = true ∧ s.isBitTick x = true ∧ receiveBit dHi dLo (s.shiftBit x) = .next t) := by
  unfold rxHalf at h
  cases ha : s.rxRuns busy <;> cases hb : s.isBitTick x <;> simp_all

/-- A decoded byte leaves everything alone but the frame's registers. -/
theorem receiveByte_frame {d : Byte} {s t : State} (h : receiveByte d s = .next t) :
    t.params = s.params ∧ t.rxEnabled = s.rxEnabled ∧ t.ramp = s.ramp ∧ t.integ = s.integ ∧
    t.lastSample = s.lastSample ∧ t.hist = s.hist ∧ t.bitCount = s.bitCount ∧ t.txActive = s.txActive ∧
    t.txSample = s.txSample ∧ t.txBit = s.txBit ∧ t.txIndex = s.txIndex ∧ t.txLen = s.txLen ∧ t.txOut = s.txOut ∧
    t.txBuf = s.txBuf ∧ t.resp = s.resp ∧ t.inputs = s.inputs ∧ t.resets = s.resets ∧ t.draws = s.draws := by
  obtain ⟨-, -, rfl⟩ | ⟨-, -, -, rfl⟩ | ⟨-, -, rfl⟩ := receiveByte_cases h <;> simp

/-- Looking for the start symbol leaves everything alone but the frame's registers. -/
theorem scanBit_frame (s : State) :
    (scanBit s).params = s.params ∧ (scanBit s).rxEnabled = s.rxEnabled ∧ (scanBit s).ramp = s.ramp ∧
    (scanBit s).integ = s.integ ∧ (scanBit s).lastSample = s.lastSample ∧ (scanBit s).hist = s.hist ∧
    (scanBit s).rxBuf = s.rxBuf ∧ (scanBit s).txActive = s.txActive ∧ (scanBit s).txSample = s.txSample ∧
    (scanBit s).txBit = s.txBit ∧ (scanBit s).txIndex = s.txIndex ∧ (scanBit s).txLen = s.txLen ∧
    (scanBit s).txOut = s.txOut ∧ (scanBit s).txBuf = s.txBuf ∧ (scanBit s).resp = s.resp ∧
    (scanBit s).inputs = s.inputs ∧ (scanBit s).resets = s.resets ∧ (scanBit s).draws = s.draws := by
  unfold scanBit
  split <;> simp

/-- The receive half leaves the transmit group and the ports alone. -/
theorem rxHalf_frame {busy x : Bool} {dHi dLo : Nibble} {s t : State} (h : rxHalf busy x dHi dLo s = .next t) :
    t.params = s.params ∧ t.rxEnabled = s.rxEnabled ∧ t.txActive = s.txActive ∧ t.txSample = s.txSample ∧
    t.txBit = s.txBit ∧ t.txIndex = s.txIndex ∧ t.txLen = s.txLen ∧ t.txOut = s.txOut ∧ t.txBuf = s.txBuf ∧
    t.resp = s.resp ∧ t.inputs = s.inputs ∧ t.resets = s.resets := by
  obtain ⟨-, rfl⟩ | ⟨-, -, rfl⟩ | ⟨-, -, h⟩ := rxHalf_cases h
  · simp
  · simp
  · obtain ⟨-, rfl⟩ | ⟨-, -, rfl⟩ | ⟨-, -, h⟩ := receiveBit_cases h
    · obtain ⟨h₁, h₂, -, -, -, -, -, h₈, h₉, h₁₀, h₁₁, h₁₂, h₁₃, h₁₄, h₁₅, h₁₆, h₁₇, -⟩ := scanBit_frame (s.shiftBit x)
      simp_all
    · simp
    · obtain ⟨h₁, h₂, -, -, -, -, -, h₈, h₉, h₁₀, h₁₁, h₁₂, h₁₃, h₁₄, h₁₅, h₁₆, h₁₇, -⟩ := receiveByte_frame h
      simp_all

/-- A tick that goes on is its transmit half and then its receive half. -/
theorem execTick_eq_next {x : Bool} {s t : State} :
    exec (.tick x) s = .next t ↔ s.params.wf = true ∧ ∃ u, txHalf s = .next u ∧
      rxHalf s.txActive x (Config.freeNibble s.draws) (Config.freeNibble (s.draws + 1)) u = .next t := by
  show execTick x s = .next t ↔ _
  rw [execTick, guarded_eq_next, andThen_eq_next]

/-- Under a well-formed parameter set a tick is its two halves. -/
theorem execTick_of_wf {s : State} (h : s.params.wf = true) (x : Bool) :
    exec (.tick x) s = andThen (txHalf s)
      (rxHalf s.txActive x (Config.freeNibble s.draws) (Config.freeNibble (s.draws + 1))) :=
  guarded_of_wf h _

end Sys2Proof.Machine
end

