-- ==== Sys2Proof/Laws/Step.lean ====
section
/-! SUPPORT. What one step can do, said once: the event it takes and what it leaves pending. -/

namespace Sys2Proof.Machine

@[simp] theorem firstEvent_resetPins : firstEvent resetPins = (some .reset, []) := rfl

@[simp] theorem firstEvent_tickPins (x : Bool) : firstEvent (tickPins x) = (some (.tick x), []) := rfl

@[simp] theorem firstEvent_cmdPins (w : Word) : firstEvent (cmdPins w) = (some (.cmd w), []) := rfl

/-- A step with an instant pending carries out that instant's first event, or drops the instant if it holds none. -/
theorem step_cons {s : State} {p : Pins} {rest : List Pins} (h : s.inputs = p :: rest) :
    step s = runInstant p rest s := by
  simp [step, takeEvent, h]

/-- With nothing pending a step changes nothing. -/
theorem step_nil {s : State} (h : s.inputs = []) : step s = complete s s := by
  simp [step, takeEvent, h]

/-- A legal command word runs its command. -/
theorem runCommand_ok {w : Word} {i : Instr} (h : decodeCommand w = .ok i) (s : State) : runCommand w s = exec i s := by
  simp [runCommand, h]

/-- A word that spells no command is answered `ILLEGAL`. -/
theorem runCommand_error {w : Word} {r : Reject} (h : decodeCommand w = .error r) (s : State) :
    runCommand w s = complete s (s.refuse .illegal) := by
  simp [runCommand, h]

/-- What a command word can do. -/
theorem runCommand_cases {w : Word} {s t : State} (h : runCommand w s = .next t) :
    (∃ i, decodeCommand w = .ok i ∧ exec i s = .next t) ∨
    (∃ r, decodeCommand w = .error r ∧ s.params.wf = true ∧ t = s.refuse .illegal) := by
  cases hd : decodeCommand w with
  | ok i => exact .inl ⟨i, rfl, runCommand_ok hd s ▸ h⟩
  | error r => exact .inr ⟨r, rfl, complete_eq_next.1 (runCommand_error hd s ▸ h)⟩

/-- What an event can do. -/
theorem runEvent_cases {e : Event} {s t : State} (h : runEvent e s = .next t) :
    (e = .reset ∧ s.params.wf = true ∧ t = s.resetRegisters) ∨
    (∃ x, e = .tick x ∧ exec (.tick x) s = .next t) ∨
    (∃ w, e = .cmd w ∧ runCommand w s = .next t) := by
  cases e with
  | reset => exact .inl ⟨rfl, complete_eq_next.1 h⟩
  | tick x => exact .inr (.inl ⟨x, rfl, h⟩)
  | cmd w => exact .inr (.inr ⟨w, rfl, h⟩)

/-- The steps that go on: nothing pending, an event carried out, or an empty instant dropped. -/
theorem step_cases {s t : State} (h : step s = .next t) :
    (s.inputs = [] ∧ s.params.wf = true ∧ t = s) ∨
    (∃ p rest e, s.inputs = p :: rest ∧ (firstEvent p).1 = some e ∧
      runEvent e (s.withInputs ((firstEvent p).2 ++ rest)) = .next t) ∨
    (∃ p rest, s.inputs = p :: rest ∧ (firstEvent p).1 = none ∧ s.params.wf = true ∧
      t = s.withInputs ((firstEvent p).2 ++ rest)) := by
  cases hi : s.inputs with
  | nil =>
    rw [step_nil hi] at h
    exact .inl ⟨rfl, complete_eq_next.1 h⟩
  | cons p rest =>
    rw [step_cons hi, runInstant] at h
    cases hf : (firstEvent p).1 with
    | some e =>
      rw [hf] at h
      exact .inr (.inl ⟨p, rest, e, rfl, hf, h⟩)
    | none =>
      rw [hf] at h
      exact .inr (.inr ⟨p, rest, rfl, hf, complete_eq_next.1 h⟩)

end Sys2Proof.Machine
end

