-- ==== Sys2Proof/Laws/PerInstr.lean ====
section
/-! SUPPORT. Statements for all operations, one lemma per constructor: every operation's word lies in its own row of the
opcode map (30_encoding.md R93). -/

namespace Sys2Proof.Laws.Row

/-- The word of an operation selects the operation's row. -/
def Statement (i : Instr) : Prop := encode i &&& i.row.mask = i.row.pattern

/-- The mask of format A drops the operand. -/
theorem opWord_and_mask (op : BitVec 4) (arg : Byte) : opWord op arg &&& 0xFF00 = opWord op 0 := by
  ext i hi
  interval_cases i <;> simp [opWord]

theorem nop : Statement .nop := rfl
theorem reset : Statement .reset := rfl
theorem csrRd (n : Byte) : Statement (.csrRd n) := opWord_and_mask 0x2 n
theorem rxEnable : Statement .rxEnable := rfl
theorem rxDisable : Statement .rxDisable := rfl
theorem rxClear : Statement .rxClear := rfl
theorem rxRead (i : Byte) : Statement (.rxRead i) := opWord_and_mask 0x6 i
theorem txClear : Statement .txClear := rfl
theorem txPush (s : Byte) : Statement (.txPush s) := opWord_and_mask 0x8 s
theorem txStart : Statement .txStart := rfl
theorem tick (x : Bool) : Statement (.tick x) := by cases x <;> rfl

end Sys2Proof.Laws.Row
end

