-- ==== Sys2Proof/Laws/Runs.lean ====
section
/-! SUPPORT. Runs one event at a time and one after the other; what the driver's poll of STATUS gives. -/

namespace Sys2Proof.Machine

@[simp] theorem runEvents_nil (s : State) : runEvents [] s = .next s := rfl

@[simp] theorem runEvents_cons (e : Event) (es : List Event) (s : State) :
    runEvents (e :: es) s = andThen (runEvent e s) (runEvents es) := rfl

@[simp] theorem runTicks_nil (s : State) : runTicks [] s = .next s := rfl

@[simp] theorem runTicks_cons (x : Bool) (xs : List Bool) (s : State) :
    runTicks (x :: xs) s = andThen (exec (.tick x) s) (runTicks xs) := rfl

@[simp] theorem runOps_nil (s : State) : runOps [] s = .next s := rfl

@[simp] theorem runOps_cons (i : Instr) (is : List Instr) (s : State) :
    runOps (i :: is) s = andThen (exec i s) (runOps is) := rfl

@[simp] theorem wiredTicks_nil (ab : State × State) : wiredTicks [] ab = .next ab := rfl

@[simp] theorem wiredTicks_cons (x : Bool) (xs : List Bool) (ab : State × State) :
    wiredTicks (x :: xs) ab = andThen (wiredTick x ab) (wiredTicks xs) := rfl

@[simp] theorem issue_nil (i : Instr) (s : State) : issue [] i s = exec i s := rfl

@[simp] theorem runSpaced_nil (gaps : List (List Bool)) (s : State) : runSpaced [] gaps s = .next s := rfl

@[simp] theorem runSpaced_cons (i : Instr) (is : List Instr) (gaps : List (List Bool)) (s : State) :
    runSpaced (i :: is) gaps s = andThen (issue (gaps.headD []) i s) (runSpaced is gaps.tail) := rfl

@[simp] theorem wiredSpaced_nil (gaps : List (List Bool)) (ab : State × State) : wiredSpaced [] gaps ab = .next ab := rfl

@[simp] theorem wiredSpaced_cons (i : Instr) (is : List Instr) (gaps : List (List Bool)) (ab : State × State) :
    wiredSpaced (i :: is) gaps ab =
      andThen (wiredTicks (gaps.headD []) ab) fun cd =>
        andThen (exec i cd.1) fun a => wiredSpaced is gaps.tail (a, cd.2) := rfl

/-- A command that goes on went on from where the ticks before it led. -/
theorem issue_eq_next {xs : List Bool} {i : Instr} {s u : State} :
    issue xs i s = .next u ↔ ∃ t, runTicks xs s = .next t ∧ exec i t = .next u := andThen_eq_next

/-- What goes on in order may be grouped either way. -/
theorem andThen_assoc {α β γ : Type} (o : Host.Outcome α Fault Refusal) (k : α → Host.Outcome β Fault Refusal)
    (l : β → Host.Outcome γ Fault Refusal) : andThen (andThen o k) l = andThen o fun a => andThen (k a) l := by
  cases o <;> rfl

theorem runEvents_append (es fs : List Event) (s : State) :
    runEvents (es ++ fs) s = andThen (runEvents es s) (runEvents fs) := by
  induction es generalizing s with
  | nil => rfl
  | cons e es ih => exact (congrArg (andThen _) (funext ih)).trans (andThen_assoc ..).symm

theorem runTicks_append (xs ys : List Bool) (s : State) :
    runTicks (xs ++ ys) s = andThen (runTicks xs s) (runTicks ys) := by
  induction xs generalizing s with
  | nil => rfl
  | cons x xs ih => exact (congrArg (andThen _) (funext ih)).trans (andThen_assoc ..).symm

theorem runOps_append (is js : List Instr) (s : State) :
    runOps (is ++ js) s = andThen (runOps is s) (runOps js) := by
  induction is generalizing s with
  | nil => rfl
  | cons i is ih => exact (congrArg (andThen _) (funext ih)).trans (andThen_assoc ..).symm

/-- With no tick among them commands run as a plain run of operations. -/
@[simp] theorem runSpaced_no_gaps (is : List Instr) (s : State) : runSpaced is [] s = runOps is s := by
  induction is generalizing s with
  | nil => rfl
  | cons i is ih => exact congrArg (andThen _) (funext ih)

theorem runSpaced_append (is js : List Instr) (gaps : List (List Bool)) (s : State) :
    runSpaced (is ++ js) gaps s = andThen (runSpaced is gaps s) (runSpaced js (gaps.drop is.length)) := by
  induction is generalizing gaps s with
  | nil => rfl
  | cons i is ih =>
    rw [List.cons_append, runSpaced_cons, runSpaced_cons, andThen_assoc, List.length_cons, ← List.drop_tail]
    exact congrArg (andThen _) (funext (ih gaps.tail))

theorem wiredTicks_append (xs ys : List Bool) (ab : State × State) :
    wiredTicks (xs ++ ys) ab = andThen (wiredTicks xs ab) (wiredTicks ys) := by
  induction xs generalizing ab with
  | nil => rfl
  | cons x xs ih => exact (congrArg (andThen _) (funext ih)).trans (andThen_assoc ..).symm

@[simp] theorem State.answerData_respond (s : State) (c : Code) (d : Word) : (s.respond c d).answerData = d := rfl

/-- The poll of STATUS answers it and changes nothing else. -/
theorem exec_csrRd_zero {s : State} (h : s.params.wf = true) :
    exec (.csrRd 0) s = .next (s.respond .ok s.statusWord) := by
  have hc : s.csr 0 = some s.statusWord := rfl
  simp only [exec, execCsrRd, hc, complete_of_wf h]

/-- A wait with no gap left is its last poll. -/
theorem waitFor_nil {s : State} (h : s.params.wf = true) (ready : Word → Bool) :
    waitFor ready [] s = .next (ready s.statusWord, s.respond .ok s.statusWord) := by
  rw [waitFor, exec_csrRd_zero h, andThen_next, State.answerData_respond]

/-- A wait with a gap left is over, or goes on after that gap's ticks. -/
theorem waitFor_cons {s : State} (h : s.params.wf = true) (ready : Word → Bool) (xs : List Bool)
    (l : List (List Bool)) :
    waitFor ready (xs :: l) s =
      if ready s.statusWord then .next (true, s.respond .ok s.statusWord)
      else andThen (runTicks xs (s.respond .ok s.statusWord)) (waitFor ready l) := by
  rw [waitFor, exec_csrRd_zero h, andThen_next, State.answerData_respond]

/-- One poll of `recv` without a frame ready. -/
theorem recvPoll_of_not_ready {s : State} (h : s.params.wf = true) (hr : rxWaitOver s.statusWord = false)
    (network : Word) (device broadcast : Byte) (during : List (List Bool)) :
    recvPoll network device broadcast during s = .next (none, s.respond .ok s.statusWord) := by
  rw [recvPoll, exec_csrRd_zero h, andThen_next, State.answerData_respond, hr]
  rfl

end Sys2Proof.Machine
end

