-- ==== Sys2Proof/Tests/Slice0.lean ====
section
/-! SUPPORT. Tests of single operations against 95_test_vectors.md, the smoke tests of the well-formedness checks, and one
witness per statement that has hypotheses. -/

namespace Sys2Proof.Tests

open Sys2Proof Sys2Proof.Machine

/-! ### Helpers -/

/-- A field of what an outcome goes on with, if it goes on. -/
def peek {α β : Type} (o : Host.Outcome β Fault Refusal) (f : β → α) : Option α :=
  match o with
  | .next t => some (f t)
  | .fault _ => none
  | .refused _ => none

/-- The next state passes a check. -/
def holds (o : Host.Outcome State Fault Refusal) (f : State → Bool) : Bool := (peek o f).getD false

/-- The refusal, if it is one. -/
def refusal (o : Host.Outcome State Fault Refusal) : Option Refusal :=
  match o with
  | .next _ => none
  | .fault _ => none
  | .refused r => some r

/-- The response in a state, as code and data. -/
def answer (s : State) : Option (Code × Word) := s.resp.map fun r => (r.code, r.data)

/-- A receiver scanning for a start symbol. -/
def scanning (ramp : BitVec 16) (integ : BitVec 8) (last : Bool) (hist : Word) : State :=
  { State.reset with rxEnabled := true, ramp := ramp, integ := integ, lastSample := last, hist := hist }

/-- A receiver inside a frame, `bufLen` bytes of which are stored. -/
def collecting (s : State) (bitCount bufLen expLen : BitVec 8) (buf : Memory) : State :=
  { s with rxActive := true, bitCount := bitCount, bufLen := bufLen, expLen := expLen, rxBuf := buf }

/-- A receiver whose frame of ten bytes waits for the host. -/
def waiting (s : State) : State :=
  { s with
    rxReady := true, bufLen := 10, expLen := 10,
    rxBuf := [(0, 10), (1, 0x5A), (2, 0xC0), (3, 1), (4, 2), (5, 7), (6, 0x48), (7, 0x69), (8, 0x1D), (9, 0xF1)] }

/-- The transmitter of 95_test_vectors.md V18, with `tx_len` 2. -/
def sending (active : Bool) (sample bit : BitVec 4) (index : BitVec 8) (out : Bool) : State :=
  { State.reset with
    txActive := active, txSample := sample, txBit := bit, txIndex := index, txOut := out, txLen := 2,
    txBuf := [(0, 0x2A), (1, 0x38)] }

/-- The five registers of a row of V18. -/
def txRow (s : State) : Bool × BitVec 4 × BitVec 4 × BitVec 8 × Bool :=
  (s.txActive, s.txSample, s.txBit, s.txIndex, s.txOut)

/-- The parameter set PS of 95_test_vectors.md P4. -/
def ps : Params where
  oversampling := 8
  symbolBits := 4
  startSymbol := 0x5C
  preamble := [0xA, 0xA, 0xC, 0x5]
  enc := (List.range 16).map (BitVec.ofNat 8)
  rampMax := 80
  rampInc := 10
  rampTransition := 40
  rampIncRetard := 5
  rampIncAdvance := 15
  integThreshold := 5
  headerSize := 5
  payloadMax := 30
  messageMin := 1
  messageMax := 4
  rxBufCap := 4
  txBufCap := 12
  rxOverrun := .hold
  rxGatedByTx := false
  linkLayer := false

/-- Reads above every listed index give nothing. -/
theorem read_bounded (m : Memory) (cap : Nat) (h : ∀ c ∈ m, c.1 < cap) :
    ∀ i, (Memory.read m i).isSome = true → i < cap := by
  induction m with
  | nil => simp
  | cons c m ih =>
    intro i hi
    rw [Memory.read] at hi
    split at hi
    · rename_i e
      exact e ▸ h c (by simp)
    · exact ih (fun d hd => h d (by simp [hd])) i hi

/-- The invariants from checks that evaluate. -/
theorem inv_of_checks (s : State)
    (h : s.params.wf = true ∧ (s.rxActive = true → s.rxEnabled = true) ∧ (s.rxActive = true → s.rxReady = false) ∧
      s.ramp.toNat < s.params.rampMax ∧ s.integ.toNat ≤ Params.ceilDiv s.params.rampMax s.params.rampIncRetard ∧
      s.hist.toNat < 2 ^ (2 * s.params.symbolBits) ∧ s.bitCount.toNat < 2 * s.params.symbolBits ∧
      (s.rxActive = false → s.bitCount = 0) ∧ s.bufLen.toNat ≤ s.params.rxBufCap)
    (h' : (0 < s.bufLen.toNat → State.lengthOk s.params s.expLen = true) ∧
      (0 < s.bufLen.toNat → s.bufLen.toNat ≤ s.expLen.toNat) ∧
      (0 < s.bufLen.toNat → Memory.read s.rxBuf 0 = some s.expLen) ∧
      (s.rxReady = true → s.bufLen = s.expLen ∧ 0 < s.bufLen.toNat) ∧
      (s.rxActive = true → 0 < s.bufLen.toNat → s.bufLen.toNat < s.expLen.toNat))
    (h'' : s.txLen.toNat ≤ s.params.txBufCap ∧ s.txIndex.toNat ≤ s.txLen.toNat ∧
      s.txBit.toNat < s.params.symbolBits ∧ s.txSample.toNat < s.params.oversampling ∧
      (∀ i, i < s.txLen.toNat → (Memory.read s.txBuf i).isSome = true) ∧
      (s.txActive = false → s.txOut = false ∧ s.txSample = 0 ∧ s.txBit = 0) ∧
      s.integ.toNat * s.params.rampIncRetard ≤ s.ramp.toNat ∧ (s.txIndex = s.txLen → s.txBit = 0))
    (h''' : (∀ i, i < s.bufLen.toNat → (Memory.read s.rxBuf i).isSome = true) ∧ Memory.wf s.rxBuf = true ∧
      Memory.wf s.txBuf = true ∧ (∀ c ∈ s.rxBuf, c.1 < s.params.rxBufCap) ∧ ∀ c ∈ s.txBuf, c.1 < s.params.txBufCap) :
    s.Inv := by
  obtain ⟨a1, a2, a3, a4, a5, a6, a7, a8, a9⟩ := h
  obtain ⟨b1, b2, b3, b4, b5⟩ := h'
  obtain ⟨c1, c2, c3, c4, c5, c6, c7, c8⟩ := h''
  obtain ⟨d1, d2, d3, d4, d5⟩ := h'''
  exact ⟨⟨a1, a2, a3, a4, a5, a6, a7, a8, a9, b1, b2, fun hl => by simp [State.byteAt, State.memory, b3 hl], b4, b5,
    c1, c2, c3, c4, c5, c6⟩, c7, c8, d1, d2, d3, read_bounded _ _ d4, read_bounded _ _ d5⟩

theorem ps_wf : ps.wf = true := by decide

/-! ### Well-formedness: an ill-formed term for each check -/

theorem test_tick_is_no_command : Instr.wf .command (.tick true) = false := by decide

theorem test_commands_are_no_strobe :
    ∀ i ∈ [Instr.nop, .reset, .csrRd 0, .rxEnable, .rxDisable, .rxClear, .rxRead 0, .txClear, .txPush 0, .txStart],
      Instr.wf .strobe i = false := by decide

/-- One set per item of 00_scope.md R11, refused by that item's check. -/
theorem test_ill_formed_parameters :
    Params.oversamplingOk { Params.p0 with oversampling := 7 } = false ∧
    Params.symbolBitsOk { Params.p0 with symbolBits := 9 } = false ∧
    Params.startSymbolOk { Params.p0 with startSymbol := 0 } = false ∧
    Params.preambleOk { Params.p0 with preamble := [0x2C, 0x38] } = false ∧
    Params.codecOk { Params.p0 with enc := List.replicate 16 0x0D } = false ∧
    Params.rampOk { Params.p0 with rampInc := 21 } = false ∧
    Params.incrementsOk { Params.p0 with rampIncRetard := 0 } = false ∧
    Params.rampFits { Params.p0 with rampMax := 65528 } = false ∧
    Params.integFits { Params.p0 with rampMax := 256, rampIncRetard := 1 } = false ∧
    Params.thresholdOk { Params.p0 with integThreshold := 9 } = false ∧
    Params.messageOk { Params.p0 with rxBufCap := 37 } = false ∧
    Params.txBufOk { Params.p0 with txBufCap := 83 } = false ∧
    Params.linkLayerOk { Params.p0 with payloadMax := 29 } = false := by decide

/-- The whole check refuses them too; and item 13 is not asked for without the link layer. -/
theorem test_ill_formed_parameters_refused :
    (∀ p ∈ [{ Params.p0 with oversampling := 7 }, { Params.p0 with integThreshold := 9 },
      { Params.p0 with payloadMax := 29 }], Params.wf p = false) ∧
    Params.wf { Params.p0 with payloadMax := 29, linkLayer := false } = true := by decide

/-! ### Decoding: words written out from 30_encoding.md R90, R93 -/

/-- Receiver, transmitter, system and tick words: op, rsv, arg spelled as bits; V1. -/
theorem test_decode_families :
    decodeCommand 0b0011_0000_00000000 = .ok .rxEnable ∧ decodeCommand 0b0110_0000_00100101 = .ok (.rxRead 37) ∧
    decodeCommand 0b1000_0000_00101010 = .ok (.txPush 42) ∧ decodeCommand 0b1001_0000_00000000 = .ok .txStart ∧
    decodeCommand 0b0010_0000_00000101 = .ok (.csrRd 5) ∧ decodeCommand 0b0001_0000_00000000 = .ok .reset ∧
    decodeRunWord 0b1111_0000_00000001 = .ok (.tick true) ∧
    decodeCommand 0b1111_0000_00000001 = .error .tickOnCommandPort := by decide

/-- V1's illegal words, one per reason of R96. -/
theorem test_decode_illegal :
    decodeCommand 0x9001 = .error .argNotZero ∧ decodeCommand 0x8100 = .error .rsvNotZero ∧
    decodeCommand 0xE000 = .error .reservedOp ∧ decodeRunWord 0xF002 = .error .tickArgNotZero ∧
    decodeRunWord 0xF100 = .error .rsvNotZero ∧ decodeCommand 0xFFFF = .error .tickOnCommandPort := by decide

/-- The rows of spec/opcode_table.json as numbers. -/
theorem test_table_words :
    [0x0000, 0x1000, 0x2007, 0x3000, 0x4000, 0x5000, 0x6025, 0x7000, 0x802A, 0x9000, 0xF001].map (decodeTableWord 16) =
      [Instr.nop, .reset, .csrRd 7, .rxEnable, .rxDisable, .rxClear, .rxRead 37, .txClear, .txPush 42, .txStart,
        .tick true].map some := by decide

/-- A presented word runs as the first operation after reset. -/
theorem test_fetch :
    peek (step (State.reset.withFetchWord 16 0x802A)) (fun t => (t.txLen, answer t)) = some (1, some (.ok, 0)) ∧
    peek (step (State.reset.withFetchWord 16 0xF001)) (fun t => decide (t = State.reset)) = some true := by decide

/-! ### Codec -/

/-- V2, V3. -/
theorem test_codec :
    [0x0, 0x7, 0xA, 0xF].map (enc4 Params.p0) = [0x0D, 0x1C, 0x26, 0x34] ∧
    [0x98D, 0x999, 0x3B4, 0x8CD].map (decode8 Params.p0 1 2) = [0x0A, 0x5A, 0xF1, 0x08] := by decide

/-- V3's undefined half, under three draws. -/
theorem test_codec_undefined :
    [0, 3, 15].map (fun d => decode8 Params.p0 d 2 0x9BF) = [0x0A, 0x3A, 0xFA] := by decide

/-- V30: checks of R204; and V30's first symbols. -/
theorem test_checksum_and_symbols :
    crc16 [] = 0xFFFF ∧ crc16 [0x00] = 0x0F87 ∧ crc16 [0x0A] = 0xA0DD ∧
    symbolsOf Params.p0 [0x0A, 0xC0] = [0x0D, 0x26, 0x2A, 0x0D] := by decide

/-- V30: frame A. -/
theorem test_frame :
    buildFrame ⟨0xC05A, 1, 2, 7⟩ [0x48, 0x69] = [0x0A, 0x5A, 0xC0, 0x01, 0x02, 0x07, 0x48, 0x69, 0x1D, 0xF1] := by
  decide +kernel

/-! ### TICK -/

/-- V7 and V8: increment, wrap, threshold. -/
theorem test_tick_phase :
    [scanning 79 4 false 0, scanning 80 4 false 0, scanning 131 4 false 0, scanning 159 4 false 0,
        scanning 140 4 true 0xFFF].map
      (fun s => peek (exec (.tick true) s) fun t => (t.ramp, t.integ, t.hist, t.lastSample)) =
    [some (90, 5, 0, true), some (109, 5, 0, true), some (0, 0, 0x800, true), some (28, 0, 0x800, true),
      some (0, 0, 0xFFF, true)] ∧
    peek (exec (.tick false) (scanning 140 4 false 0xFFF)) (fun t => (t.ramp, t.integ, t.hist)) =
      some (0, 0, 0x7FF) := by decide

/-- V9 to V12: the length check, the start symbol, storing and completing, the gate. -/
theorem test_tick_frame :
    holds (exec (.tick false) (collecting (scanning 140 0 false 0xE1A) 11 0 0 []))
      (fun t => !t.rxActive && t.bufLen == 0 && t.expLen == 7 && t.rxBuf == []) ∧
    holds (exec (.tick true) (collecting (scanning 140 8 true 0x19A) 11 0 0 []))
      (fun t => t.rxActive && t.bufLen == 1 && t.expLen == 8 && t.rxBuf == [(0, 8)]) ∧
    holds (exec (.tick true) { scanning 151 7 true 0x671 with bufLen := 10, expLen := 10 })
      (fun t => t.rxActive && t.ramp == 11 && t.bufLen == 0 && t.expLen == 0 && t.hist == 0xB38) ∧
    holds (exec (.tick true) (waiting (scanning 151 7 true 0x671)))
      (fun t => !t.rxActive && t.rxReady && t.bufLen == 10 && t.hist == 0xB38) ∧
    holds (exec (.tick false) (collecting (scanning 140 0 false 0x768) 11 9 10 (waiting State.reset).rxBuf))
      (fun t => !t.rxActive && t.rxReady && t.bufLen == 10 && t.byteAt .rx 9 == 0xF1) ∧
    holds (exec (.tick true)
        { sending true 0 0 2 true with
          rxEnabled := true, ramp := 77, integ := 3, params := { Params.p0 with rxGatedByTx := true } })
      (fun t => !t.txActive && t.ramp == 77 && t.integ == 3 && !t.lastSample) := by decide

/-- V18: every row. -/
theorem test_tick_transmit :
    [sending true 0 0 0 false, sending true 1 1 0 false, sending true 7 1 0 false, sending true 0 1 0 false,
        sending true 0 5 1 true, sending true 0 0 2 true, sending false 0 0 2 false].map
      (fun s => peek (exec (.tick false) s) txRow) =
    [some (true, 1, 1, 0, false), some (true, 2, 1, 0, false), some (true, 0, 1, 0, false), some (true, 1, 2, 0, true),
      some (true, 1, 0, 2, true), some (false, 0, 0, 2, false), some (false, 0, 0, 2, false)] := by decide

/-! ### Commands -/

/-- V22. -/
theorem test_rx_enable :
    peek (exec .rxEnable { waiting (scanning 0x16 0 true 0x955) with draws := 20 })
      (fun t => ((List.range 6).map fun n => t.csr (BitVec.ofNat 8 n), t.byteAt .rx 0)) =
      some ([some 1, some 0, some 0, some 0, some 0, some 0], 10) := by decide

/-- V23. -/
theorem test_rx_disable :
    peek (exec .rxDisable (collecting (scanning 0 0 false 0) 7 3 10 (waiting State.reset).rxBuf))
      (fun t => (t.csr 0, t.csr 4, t.csr 5)) = some (some 0, some 0, some 0x0A03) ∧
    peek (exec .rxDisable (waiting (scanning 0 0 false 0))) (fun t => t.csr 0) = some (some 4) := by decide

/-- V24. -/
theorem test_rx_clear :
    peek (exec .rxClear (waiting (scanning 0 0 false 0))) (fun t => (t.csr 0, t.csr 5)) = some (some 1, some 0x0A0A) := by
  decide

/-- V24 and P1's drain. -/
theorem test_rx_read :
    [1, 9, 38, 255].map (fun i => peek (exec (.rxRead i) (waiting State.reset)) answer) =
      [some (some (.ok, 0x5A)), some (some (.ok, 0xF1)), some (some (.range, 0)), some (some (.range, 0))] := by decide

/-- V27 and 43_host_tx_commands.md R180's example. -/
theorem test_tx_clear :
    peek (exec .txClear (sending false 0 0 2 false)) (fun t => (t.csr 6, t.csr 7)) = some (some 0, some 0) ∧
    holds (exec .txClear (sending true 3 2 1 true))
      (fun t => answer t == some (.busy, 0) && txRow t == (true, 3, 2, 1, true)) := by decide

/-- V25's last push, the refusal after it, and V27's order of checks. -/
theorem test_tx_push :
    peek (exec (.txPush 0x15) { State.reset with txLen := 83 }) (fun t => (answer t, t.txLen, t.byteAt .tx 83)) =
      some (some (.ok, 0), 84, 0x15) ∧
    peek (exec (.txPush 0x15) { State.reset with txLen := 84 }) answer = some (some (.oversize, 0)) ∧
    peek (exec (.txPush 1) { State.reset with txActive := true, txLen := 84 }) answer = some (some (.busy, 0)) := by
  decide

/-- V26, V27. -/
theorem test_tx_start :
    peek (exec .txStart (sending false 0 0 0 false)) (fun t => (answer t, t.csr 0, t.csr 6)) =
      some (some (.ok, 0), some 8, some 0) ∧
    peek (exec .txStart (sending true 3 2 1 true)) answer = some (some (.busy, 0)) := by decide

/-- V28's packing and range. -/
theorem test_csr_rd :
    peek (exec (.csrRd 6) (sending true 1 4 1 true)) answer = some (some (.ok, 0x1401)) ∧
    peek (exec (.csrRd 5) { State.reset with expLen := 39 }) answer = some (some (.ok, 0x2700)) ∧
    peek (exec (.csrRd 0) (waiting (scanning 0 0 true 0))) answer = some (some (.ok, 0x25)) ∧
    peek (exec (.csrRd 8) State.reset) answer = some (some (.range, 0)) := by decide

/-- V29. -/
theorem test_nop_and_reset :
    holds (exec .nop (sending true 1 4 1 true))
      (fun t => answer t == some (.ok, 0) && txRow t == (true, 1, 4, 1, true)) ∧
    holds (exec .reset (sending true 1 4 1 true))
      (fun t => answer t == some (.ok, 0) && t.txBuf == [] &&
        (List.range 8).all fun n => t.csr (BitVec.ofNat 8 n) == some 0) := by decide

/-! ### The driver -/

/-- P1's drain and `recv` (95_test_vectors.md): the frame for this device, for another one, none at all. -/
theorem test_drain_and_recv :
    peek (drain [] (waiting State.reset)) (fun r => (r.1, r.2.rxReady, answer r.2)) =
      some ([0x0A, 0x5A, 0xC0, 0x01, 0x02, 0x07, 0x48, 0x69, 0x1D, 0xF1], false, some (.ok, 0)) ∧
    peek (recv 0xC05A 1 0xFF [[true], [false]] [] (waiting State.reset)) (·.1) = some (.message 2 7 [0x48, 0x69]) ∧
    peek (recv 0xC05A 3 0xFF [] [] (waiting State.reset)) (fun r => (r.1, r.2.rxReady)) = some (.timeout, false) ∧
    peek (recv 0xC05A 1 0xFF [] [⟨[true], []⟩] State.reset) (·.1) = some .timeout := by decide +kernel

/-- A start symbol that is complete before `CSR_RD 5` leaves a held frame whole and takes a replaced one from the host
(20_memory.md R74, 70_reset_and_hazards.md R270). -/
theorem test_drain_under_ticks :
    [Overrun.hold, .replace].map (fun o =>
      peek (drain [[true]] { waiting (scanning 151 7 true 0x671) with params := { Params.p0 with rxOverrun := o } })
        fun r => (r.1.length, r.2.rxActive)) = [some (10, false), some (0, true)] := by decide +kernel

/-- `WAIT_TX` sees V18's completing tick, and not before it; `send` meanwhile is `Busy`, unless that tick falls before its
STATUS read; a payload of 31 bytes is too long (43_host_tx_commands.md R183). -/
theorem test_wait_and_send :
    peek (waitTx [[true]] (sending true 0 0 2 true)) (fun r => (r.1, r.2.txActive)) = some (true, false) ∧
    peek (waitTx [] (sending true 0 0 2 true)) (fun r => (r.1, r.2.txActive)) = some (false, true) ∧
    peek (send [] ⟨0xC05A, 1, 2, 7⟩ [0x48] (sending true 0 0 2 true)) (·.1) = some .busy ∧
    peek (send [[true]] ⟨0xC05A, 1, 2, 7⟩ [] (sending true 0 0 2 true)) (fun r => (r.1, r.2.txLen)) = some (.sent, 24) ∧
    peek (send [] ⟨0xC05A, 1, 2, 7⟩ (List.replicate 31 0) State.reset) (fun r => (r.1, answer r.2)) =
      some (.oversizePayload, none) := by decide +kernel

/-- `begin` at a bit rate in range with and without a receiver, and out of range; `end` (46_link_layer_contract.md R208). -/
theorem test_begin_and_end :
    [(true, 1), (false, 1), (true, 200)].map (fun c =>
      peek (Driver.start (· / ·) ⟨1000, [1, 8], 8⟩ c.2 [] ⟨State.reset, c.1, none, false⟩)
        fun r => (r.1, r.2.block.rxEnabled, r.2.setting, r.2.ticking)) =
      [some (true, true, some ⟨1, 125⟩, true), some (true, false, some ⟨1, 125⟩, true), some (false, false, none, false)] ∧
    peek (Driver.stop [[true]] [true] [true]
        ⟨{ sending true 0 0 2 true with rxEnabled := true }, true, some ⟨1, 125⟩, true⟩)
      (fun r => (r.1, r.2.block.txActive, r.2.block.rxEnabled, r.2.ticking)) = some (true, false, false, false) := by
  decide

/-- An ill-formed parameter set is refused. -/
theorem test_refusal :
    refusal (exec .nop { State.reset with params := { Params.p0 with oversampling := 7 } }) =
      some .illFormedParameters := by decide

/-! ### Witnesses: for every statement with hypotheses, states and operands that meet them together -/

theorem inv_reset : State.reset.Inv := inv_of_checks _ (by decide) (by decide) (by decide) (by decide)

theorem inv_scanning_79 : (scanning 79 4 false 0).Inv :=
  inv_of_checks _ (by decide) (by decide) (by decide) (by decide)

theorem inv_scanning_80 : (scanning 80 4 false 0).Inv :=
  inv_of_checks _ (by decide) (by decide) (by decide) (by decide)

theorem inv_scanning_131 : (scanning 131 4 false 0).Inv :=
  inv_of_checks _ (by decide) (by decide) (by decide) (by decide)

/-- V10's entry: the next 1 completes the start symbol. -/
theorem inv_matching : (scanning 151 7 true 0x671).Inv :=
  inv_of_checks _ (by decide) (by decide) (by decide) (by decide)

theorem inv_matching_held : (waiting (scanning 151 7 true 0x671)).Inv :=
  inv_of_checks _ (by decide) (by decide) (by decide) (by decide)

/-- V9's rows: a first byte 7, 8 or 39 is about to be whole, or has one bit to go. -/
theorem inv_first_7 : (collecting (scanning 140 0 false 0xE1A) 11 0 0 []).Inv :=
  inv_of_checks _ (by decide) (by decide) (by decide) (by decide)

theorem inv_first_8 : (collecting (scanning 140 8 true 0x19A) 11 0 0 []).Inv :=
  inv_of_checks _ (by decide) (by decide) (by decide) (by decide)

theorem inv_first_39 : (collecting (scanning 140 0 false 0xE26) 11 0 0 []).Inv :=
  inv_of_checks _ (by decide) (by decide) (by decide) (by decide)

theorem inv_one_bit_to_go : (collecting (scanning 140 0 false 0xE1A) 10 0 0 []).Inv :=
  inv_of_checks _ (by decide) (by decide) (by decide) (by decide)

/-- V11's last row: the tenth byte of ten. -/
theorem inv_last_byte : (collecting (scanning 140 0 false 0x768) 11 9 10 (waiting State.reset).rxBuf).Inv :=
  inv_of_checks _ (by decide) (by decide) (by decide) (by decide)

theorem inv_second_byte : (collecting (scanning 140 8 true 0x332) 11 1 10 [(0, 10)]).Inv :=
  inv_of_checks _ (by decide) (by decide) (by decide) (by decide)

theorem inv_idle : (sending false 0 0 2 false).Inv :=
  inv_of_checks _ (by decide) (by decide) (by decide) (by decide)

theorem inv_first_bit : (sending true 0 0 0 false).Inv :=
  inv_of_checks _ (by decide) (by decide) (by decide) (by decide)

theorem inv_last_bit : (sending true 0 5 1 true).Inv :=
  inv_of_checks _ (by decide) (by decide) (by decide) (by decide)

theorem inv_between_bits : (sending true 7 1 0 false).Inv :=
  inv_of_checks _ (by decide) (by decide) (by decide) (by decide)

theorem inv_completing : (sending true 0 0 2 true).Inv :=
  inv_of_checks _ (by decide) (by decide) (by decide) (by decide)

/-- A machine with a parameter set that is not P0. -/
theorem inv_ps : State.Inv { State.reset with params := ps, rxEnabled := true, ramp := 79 } :=
  inv_of_checks _ (by decide) (by decide) (by decide) (by decide)

/-- A reset state with some inputs pending. -/
def pending (l : List Pins) : State := State.reset.withInputs l

theorem witness_OpcodeMapSelectsTheOperation :
    (0x0000 : Word) &&& 0xFFFF = 0x0000 ∧ (0x1000 : Word) &&& 0xFFFF = 0x1000 ∧ (0x20FF : Word) &&& 0xFF00 = 0x2000 ∧
    (0x3000 : Word) &&& 0xFFFF = 0x3000 ∧ (0x4000 : Word) &&& 0xFFFF = 0x4000 ∧ (0x5000 : Word) &&& 0xFFFF = 0x5000 ∧
    (0x60FF : Word) &&& 0xFF00 = 0x6000 ∧ (0x7000 : Word) &&& 0xFFFF = 0x7000 ∧ (0x80FF : Word) &&& 0xFF00 = 0x8000 ∧
    (0x9000 : Word) &&& 0xFFFF = 0x9000 ∧ (0xF001 : Word) &&& 0xFFFE = 0xF000 ∧
    ((0xF002 : Word) &&& 0xFFFF ∉ [0x0000, 0x1000, 0x3000, 0x4000, 0x5000, 0x7000, 0x9000] ∧
      (0xF002 : Word) &&& 0xFF00 ∉ [0x2000, 0x6000, 0x8000] ∧ (0xF002 : Word) &&& 0xFFFE ≠ 0xF000) := by decide

theorem witness_DecodeAndEncodeAgree :
    Instr.wf .command (.txPush 0xFF) = true ∧ decodeRunWord 0xF000 = .ok (.tick false) := by decide

theorem witness_WordsThatSpellNoCommandAreIllegal :
    State.reset.params.wf = true ∧
    (10 ≤ ((0xA000 : Word).extractLsb' 12 4).toNat ∧ (0x2105 : Word).extractLsb' 8 4 ≠ 0 ∧
      ((0x9001 : Word).extractLsb' 12 4).toNat ∉ [2, 6, 8] ∧ (0x9001 : Word).extractLsb' 0 8 ≠ 0) ∧
    ((0x20FF : Word).extractLsb' 12 4).toNat = 2 ∧ (0x20FF : Word).extractLsb' 8 4 = 0 ∧
    8 ≤ ((0x2008 : Word).extractLsb' 0 8).toNat ∧
    ((0x6026 : Word).extractLsb' 12 4).toNat = 6 ∧ (0x6026 : Word).extractLsb' 8 4 = 0 ∧
    State.reset.params.rxBufCap ≤ ((0x6026 : Word).extractLsb' 0 8).toNat ∧
    ((0xF002 : Word).extractLsb' 12 4).toNat = 15 ∧ (0xF002 : Word).extractLsb' 1 7 ≠ 0 := by decide

theorem witness_StepCarriesOutTheFirstEvent :
    State.reset.params.wf = true ∧ State.reset.inputs = [] ∧
    (pending [⟨true, some true, some 0x3000⟩]).inputs = [⟨true, some true, some 0x3000⟩] ∧
    (pending [⟨false, some true, none⟩]).inputs = [⟨false, some true, none⟩] ∧
    (pending [⟨false, some true, some 0x3000⟩]).inputs = [⟨false, some true, some 0x3000⟩] ∧
    (pending [⟨false, none, some 0x3000⟩]).inputs = [⟨false, none, some 0x3000⟩] ∧
    decodeCommand 0x3000 = .ok .rxEnable ∧ decodeCommand 0xA000 = .error .reservedOp ∧
    (pending [⟨false, none, none⟩]).inputs = [⟨false, none, none⟩] := by decide

theorem witness_PresentedWordRunsItsOperation : decodeTableWord 16 0xF001 = some (.tick true) := by decide

theorem witness_CoincidentTickGoesBeforeTheCommand :
    ∃ t, (pending [⟨false, some true, some 0x3000⟩]).inputs = ⟨false, some true, some 0x3000⟩ :: [] ∧
      exec (.tick true) (pending [⟨false, some true, some 0x3000⟩]) = .next t := ⟨_, rfl, rfl⟩

theorem witness_ResetPinBeatsTickAndCommand :
    (pending [⟨true, some true, some 0x3000⟩]).params.wf = true ∧
    (pending [⟨true, some true, some 0x3000⟩]).inputs = ⟨true, some true, some 0x3000⟩ :: [] := by decide

theorem witness_ResetStateMeetsTheInvariants : ps.wf = true := ps_wf

theorem witness_TickKeepsTheIdleState :
    State.reset.params.wf = true ∧ State.reset.rxEnabled = false ∧ State.reset.txActive = false := by decide

theorem witness_WellFormedParametersAreTheThirteenConditions :
    (State.params { State.reset with params := { Params.p0 with integThreshold := 0 } }).wf = false := by decide

theorem witness_DecodeOfASymbolIsItsNibbleElseTheDraw : Params.p0.wf = true ∧ ∀ n : Nibble, enc4 Params.p0 n ≠ 0x38 := by
  decide

theorem witness_DecodeEightTakesTheOlderSymbolHigh :
    Params.p0.wf = true ∧
    (0x98D : Word).toNat = (enc4 Params.p0 0xA).toNat * 2 ^ Params.p0.symbolBits + (enc4 Params.p0 0x0).toNat := by
  decide

theorem witness_BitsOnTheWireComeBackAsTheByte :
    Params.p0.wf = true ∧ (0xFFF : Word).toNat < 2 ^ (2 * Params.p0.symbolBits) := by decide

/-- The one hypothesis of NopAnswersOkAndChangesNothing, ResetCommandClearsEveryRegister, the receiver's commands without
operand, FirstFailingCheckGivesTheResponse and EveryCommandAnswersAndTicksDoNot; and `NOP`'s words. -/
theorem witness_well_formed_state :
    State.reset.params.wf = true ∧ (0 < (0x0FFF : Word).toNat ∧ (0x0FFF : Word).toNat < 0x1000) := by decide

theorem witness_CsrReadAnswersTheNumberedRegister :
    State.reset.params.wf = true ∧ 8 ≤ (8 : Byte).toNat ∧ (7 : Byte).toNat < 8 := by decide

theorem witness_ReceiverDisableKeepsTheRest :
    ∃ t u, exec .rxDisable (scanning 79 4 false 0) = .next t ∧ exec (.tick true) t = .next u := ⟨_, _, rfl, rfl⟩

theorem witness_ReceiveReadAnswersTheByteInRange :
    State.reset.params.rxBufCap ≤ (38 : Byte).toNat ∧ (37 : Byte).toNat < State.reset.params.rxBufCap ∧
    ∃ t, exec (.rxRead 37) State.reset = .next t := ⟨by decide, by decide, _, rfl⟩

theorem witness_TransmitClearEmptiesTheBuffer :
    (sending false 0 0 2 false).txActive = false ∧ (sending true 0 0 0 false).txActive = true := by decide

theorem witness_TransmitPushAppendsOneEntry :
    (sending true 0 0 0 false).txActive = true ∧
    (State.reset.txActive = false ∧ State.reset.params.txBufCap ≤ (State.txLen { State.reset with txLen := 84 }).toNat) ∧
    (State.txLen { State.reset with txLen := 83 }).toNat < State.reset.params.txBufCap := by decide

theorem witness_TransmitStartBeginsAtTheFirstBit :
    State.reset.txActive = false ∧ (sending true 0 0 0 false).txActive = true := by decide

theorem witness_ErrorResponseLeavesNoTrace :
    (∃ t, runCommand 0xA000 State.reset = .next t ∧ t.resp = some ⟨.illegal, 0⟩ ∧ Code.illegal ≠ .ok) ∧
    ∃ t, runEvent (.tick true) (scanning 79 4 false 0) = .next t := ⟨⟨_, rfl, rfl, by decide⟩, _, rfl⟩

theorem witness_EveryCommandAnswersAndTicksDoNot : ∃ t, exec (.tick true) (scanning 79 4 false 0) = .next t := ⟨_, rfl⟩

theorem witness_IdleTransmitterIgnoresTicks :
    ∃ t, (sending false 0 0 2 false).Inv ∧ (sending false 0 0 2 false).txActive = false ∧
      exec (.tick true) (sending false 0 0 2 false) = .next t := ⟨_, inv_idle, rfl, rfl⟩

theorem witness_BitClockCountsTicks :
    ((sending true 7 1 0 false).Inv ∧ (sending true 7 1 0 false).txActive = true ∧
      (sending true 7 1 0 false).txSample ≠ 0) ∧
    ((sending true 0 5 1 true).Inv ∧ (sending true 0 5 1 true).txSample = 0 ∧
      (sending true 0 5 1 true).txIndex.toNat < (sending true 0 5 1 true).txLen.toNat) ∧
    ∃ t, exec .txStart (sending false 0 0 2 false) = .next t :=
  ⟨⟨inv_between_bits, by decide, by decide⟩, ⟨inv_last_bit, by decide, by decide⟩, _, rfl⟩

/-- Inside an entry, and its last bit. -/
theorem witness_BitTickSendsTheSelectedBit :
    (∃ t, (sending true 7 1 0 false).txActive = true ∧ (sending true 7 1 0 false).txSample ≠ 0 ∧
      exec (.tick true) (sending true 7 1 0 false) = .next t) ∧
    ((sending true 0 0 0 false).Inv ∧ (sending true 0 0 0 false).txIndex.toNat < (sending true 0 0 0 false).txLen.toNat ∧
      (sending true 0 0 0 false).txBit.toNat + 1 < (sending true 0 0 0 false).params.symbolBits) ∧
    ((sending true 0 5 1 true).Inv ∧ (sending true 0 5 1 true).txIndex.toNat < (sending true 0 5 1 true).txLen.toNat ∧
      (sending true 0 5 1 true).txBit.toNat + 1 = (sending true 0 5 1 true).params.symbolBits) :=
  ⟨⟨_, rfl, by decide, rfl⟩, ⟨inv_first_bit, by decide, by decide⟩, inv_last_bit, by decide, by decide⟩

theorem witness_BitTickAfterTheLastBitCompletes :
    (sending true 0 0 2 true).Inv ∧ (sending true 0 0 2 true).txActive = true ∧ (sending true 0 0 2 true).txSample = 0 ∧
      (sending true 0 0 2 true).txLen.toNat ≤ (sending true 0 0 2 true).txIndex.toNat :=
  ⟨inv_completing, by decide, by decide, by decide⟩

/-- Two entries: the first tick, the last tick of the last bit, the completing tick. -/
theorem witness_TransmissionFollowsItsTimeline :
    (sending false 0 0 2 false).Inv ∧ (∃ u, exec .txStart (sending false 0 0 2 false) = .next u) ∧
    [true].length = 0 + 1 ∧ (List.replicate 96 true).length = 95 + 1 ∧ 95 < 8 * (2 * 6) ∧
    (List.replicate 97 true).length = 8 * (2 * 6) + 1 := ⟨inv_idle, ⟨_, rfl⟩, by decide, by simp, by decide, by simp⟩

theorem witness_ActiveTransmissionKeepsItsBuffer :
    ∃ t, (sending true 0 0 0 false).txActive = true ∧ Instr.txClear ≠ .reset ∧
      exec .txClear (sending true 0 0 0 false) = .next t ∧ Instr.wf .command .txClear = true :=
  ⟨_, rfl, by decide, rfl, rfl⟩

theorem runs_scanning (ramp : BitVec 16) (integ : BitVec 8) (last : Bool) (hist : Word) :
    (scanning ramp integ last hist).ReceiverRuns := ⟨rfl, by simp [scanning, State.reset, Params.p0]⟩

theorem runs_collecting (ramp : BitVec 16) (integ : BitVec 8) (last : Bool) (hist : Word) (bits n e : BitVec 8)
    (buf : Memory) : (collecting (scanning ramp integ last hist) bits n e buf).ReceiverRuns :=
  ⟨rfl, by simp [collecting, scanning, State.reset, Params.p0]⟩

theorem witness_ReceiveHalfRunsOnlyWhenEnabledAndUngated :
    (∃ t, exec (.tick true) (scanning 79 4 false 0) = .next t ∧ (scanning 79 4 false 0).ReceiverRuns) ∧
    ∃ t, exec (.tick true) State.reset = .next t ∧ ¬State.reset.ReceiverRuns :=
  ⟨⟨_, rfl, runs_scanning _ _ _ _⟩, _, rfl, by simp [State.ReceiverRuns, State.reset]⟩

/-- A retard that stays below, an advance from the midpoint, a sum that is exactly `RAMP_MAX`. -/
theorem witness_RampAdvancesAndWrapsIntoABit :
    ((scanning 79 4 false 0).Inv ∧ (scanning 79 4 false 0).ReceiverRuns ∧ 79 + 11 < Params.p0.rampMax) ∧
    ((scanning 80 4 false 0).Inv ∧ (scanning 80 4 false 0).ReceiverRuns ∧ 80 + 29 < Params.p0.rampMax) ∧
    ((scanning 131 4 false 0).Inv ∧ (scanning 131 4 false 0).ReceiverRuns ∧ Params.p0.rampMax ≤ 131 + 29) :=
  ⟨⟨inv_scanning_79, runs_scanning _ _ _ _, by decide⟩, ⟨inv_scanning_80, runs_scanning _ _ _ _, by decide⟩,
    inv_scanning_131, runs_scanning _ _ _ _, by decide⟩

/-- The match taken, and the match ignored while a frame waits. -/
theorem witness_StartSymbolOpensAFrame :
    ((scanning 151 7 true 0x671).Inv ∧ (scanning 151 7 true 0x671).ReceiverRuns ∧
      (scanning 151 7 true 0x671).isBitTick true = true ∧ (scanning 151 7 true 0x671).rxReady = false ∧
      State.shiftIn Params.p0 0x671 true = Params.p0.startSymbol) ∧
    ((waiting (scanning 151 7 true 0x671)).Inv ∧ (waiting (scanning 151 7 true 0x671)).isBitTick true = true ∧
      (waiting (scanning 151 7 true 0x671)).rxReady = true) :=
  ⟨⟨inv_matching, runs_scanning _ _ _ _, by decide, rfl, by decide⟩, inv_matching_held, by decide, rfl⟩

theorem witness_FrameBitsAreCounted :
    ((collecting (scanning 140 0 false 0xE1A) 10 0 0 []).Inv ∧
      (collecting (scanning 140 0 false 0xE1A) 10 0 0 []).isBitTick false = true ∧ 10 + 1 < 2 * 6) ∧
    ((collecting (scanning 140 0 false 0xE1A) 11 0 0 []).Inv ∧
      (collecting (scanning 140 0 false 0xE1A) 11 0 0 []).ReceiverRuns ∧ 11 + 1 = 2 * 6) :=
  ⟨⟨inv_one_bit_to_go, by decide, by decide⟩, inv_first_7, runs_collecting _ _ _ _ _ _ _ _, by decide⟩

/-- The bytes 7 and 39 on either side of the range. -/
theorem witness_FirstByteOutOfRangeAbandonsTheFrame :
    ((collecting (scanning 140 0 false 0xE1A) 11 0 0 []).Inv ∧
      (collecting (scanning 140 0 false 0xE1A) 11 0 0 []).ReceiverRuns ∧
      (collecting (scanning 140 0 false 0xE1A) 11 0 0 []).isBitTick false = true ∧
      7 = decode8 Params.p0 (Config.freeNibble 0) (Config.freeNibble 1) 0x70D ∧ 7 < Params.p0.messageMin) ∧
    ((collecting (scanning 140 0 false 0xE26) 11 0 0 []).Inv ∧
      39 = decode8 Params.p0 (Config.freeNibble 0) (Config.freeNibble 1) 0x713 ∧ Params.p0.messageMax < 39) :=
  ⟨⟨inv_first_7, runs_collecting _ _ _ _ _ _ _ _, by decide, rfl, by decide⟩, inv_first_39, rfl, by decide⟩

/-- A first byte `MESSAGE_MIN`, a later byte, the last byte of a frame. -/
theorem witness_AcceptedByteIsStoredAndMayEndTheFrame :
    ((collecting (scanning 140 8 true 0x19A) 11 0 0 []).Inv ∧
      (collecting (scanning 140 8 true 0x19A) 11 0 0 []).ReceiverRuns ∧
      (collecting (scanning 140 8 true 0x19A) 11 0 0 []).isBitTick true = true ∧
      8 = decode8 Params.p0 (Config.freeNibble 0) (Config.freeNibble 1) 0x8CD ∧ Params.p0.messageMin ≤ 8) ∧
    ((collecting (scanning 140 8 true 0x332) 11 1 10 [(0, 10)]).Inv ∧ 1 + 1 < 10) ∧
    ((collecting (scanning 140 0 false 0x768) 11 9 10 (waiting State.reset).rxBuf).Inv ∧ 10 ≤ 9 + 1) :=
  ⟨⟨inv_first_8, runs_collecting _ _ _ _ _ _ _ _, by decide, rfl, by decide⟩, ⟨inv_second_byte, by decide⟩,
    inv_last_byte, by decide⟩

/-- Also the hypothesis of TickFrame's last clause. -/
theorem witness_TickFrame :
    ∃ t, exec (.tick true) (scanning 131 4 false 0) = .next t ∧ (scanning 131 4 false 0).rxActive = false := ⟨_, rfl, rfl⟩

theorem witness_CommandFrame :
    ∃ t, exec .txClear (sending false 0 0 2 false) = .next t ∧ Instr.wf .command .txClear = true ∧
      Instr.txClear ≠ .reset ∧ (∀ e, Instr.txClear ≠ .txPush e) ∧ Instr.txClear ≠ .rxEnable ∧
      Instr.txClear ≠ .rxDisable ∧ Instr.txClear ≠ .rxClear :=
  ⟨_, rfl, rfl, by decide, by simp, by decide, by decide, by decide⟩

theorem witness_CommandFrame_receiver :
    ∃ t, exec .rxClear (waiting State.reset) = .next t ∧ Instr.wf .command .rxClear = true ∧ Instr.rxClear ≠ .reset ∧
      Instr.rxClear ≠ .txClear ∧ Instr.rxClear ≠ .txStart ∧ ∀ e, Instr.rxClear ≠ .txPush e :=
  ⟨_, rfl, rfl, by decide, by decide, by decide, by simp⟩

theorem witness_HalvesOfATickShareNothing :
    ∃ t v, exec (.tick true) (sending true 0 0 0 false) = .next t ∧ exec (.tick true) (sending true 0 0 0 false) = .next v ∧
      (sending true 0 0 0 false).SameTransmitGroup (sending true 0 0 0 false) ∧
      (sending true 0 0 0 false).SameReceiveGroup (sending true 0 0 0 false) ∧
      (sending true 0 0 0 false).params.rxGatedByTx = false :=
  ⟨_, _, rfl, rfl, ⟨rfl, rfl, rfl, rfl, rfl, rfl, fun _ => rfl⟩,
    ⟨rfl, rfl, rfl, rfl, rfl, rfl, rfl, rfl, rfl, rfl, fun _ => rfl⟩, rfl⟩

theorem witness_HeldFrameIsTheHosts :
    (waiting (scanning 151 7 true 0x671)).Inv ∧ (waiting (scanning 151 7 true 0x671)).params.rxOverrun = .hold ∧
    (waiting (scanning 151 7 true 0x671)).rxReady = true ∧
    (∀ i ∈ [Instr.tick true, .rxRead 0, .rxDisable], i ≠ .rxClear ∧ i ≠ .rxEnable ∧ i ≠ .reset) ∧
    ∃ t, runOps [.tick true, .rxRead 0, .rxDisable] (waiting (scanning 151 7 true 0x671)) = .next t :=
  ⟨inv_matching_held, rfl, rfl, by decide, _, rfl⟩

/-- Also the hypotheses of NoStepStops and EveryOperationCompletesAndKeepsTheInvariants. -/
theorem witness_EveryStepKeepsTheInvariants :
    ∃ t, State.Inv { State.reset with params := ps, rxEnabled := true, ramp := 79 } ∧
      step { State.reset with params := ps, rxEnabled := true, ramp := 79 } = .next t := ⟨_, inv_ps, rfl⟩

theorem witness_EveryRunFromResetMeetsTheSpecsInvariants : ps.wf = true := ps_wf

/-- What item 8 asks of a run: the entry below `tx_len` was pushed and nothing emptied the buffer since. -/
theorem test_pushed_since_last_clear :
    ∃ t, runEvents [.cmd 0x7000, .cmd 0x802A] State.reset = .next t ∧
      PushedSinceLastClear State.reset [.cmd 0x7000, .cmd 0x802A] 0 (t.byteAt .tx 0) :=
  ⟨_, rfl, [.cmd 0x7000], 0x802A, [], _, _, rfl, rfl, rfl, rfl, rfl, rfl, by simp⟩

/-- A refused `TX_CLEAR` empties nothing, an accepted one and a reset do. -/
theorem test_empties :
    Empties .reset (sending true 0 0 0 false) ∧ Empties (.cmd 0x7000) (sending false 0 0 2 false) ∧
    ¬Empties (.cmd 0x7000) (sending true 0 0 0 false) :=
  ⟨.inl rfl, .inr ⟨_, rfl, .inr ⟨rfl, rfl⟩⟩, by
    rintro (h | ⟨w, h, h' | ⟨-, h'⟩⟩)
    · exact nomatch h
    · cases h; exact absurd h' (by decide)
    · exact absurd h' (by decide)⟩

theorem witness_ReceiveNeverOverrunsItsBuffer :
    (collecting (scanning 140 0 false 0x768) 11 9 10 (waiting State.reset).rxBuf).Inv ∧ Params.p0.rxBufCap ≤ 38 :=
  ⟨inv_last_byte, by decide⟩

theorem witness_ActiveEndsWithinTheBound :
    (collecting (scanning 140 8 true 0x332) 11 1 10 [(0, 10)]).Inv ∧
    (collecting (scanning 140 8 true 0x332) 11 1 10 [(0, 10)]).params.rxGatedByTx = false ∧
    (collecting (scanning 140 8 true 0x332) 11 1 10 [(0, 10)]).rxActive = true ∧
    (List.replicate 6840 true).length = 2 * 6 * 38 * ((160 + 11 - 1) / 11) :=
  ⟨inv_second_byte, rfl, rfl, List.length_replicate⟩

theorem witness_QuietLineDecidesOneBitInEightTicks :
    (scanning 131 4 false 0).Inv ∧ (scanning 131 4 false 0).params.rxGatedByTx = false ∧
    (scanning 131 4 false 0).rxEnabled = true := ⟨inv_scanning_131, rfl, rfl⟩

theorem witness_BitTicksAreSixToTwelveTicksApart :
    ((scanning 131 4 false 0).Inv ∧ (scanning 131 4 false 0).params = Params.p0 ∧
      (scanning 131 4 false 0).rxEnabled = true ∧ (scanning 131 4 false 0).isBitTick true = true) ∧
    (∃ t, (scanning 28 0 false 0).Inv ∧ (scanning 28 0 false 0).ramp.toNat ≤ 28 ∧ [true, false, true, true].length ≤ 4 ∧
      runTicks [true, false, true, true] (scanning 28 0 false 0) = .next t) ∧
    (List.replicate 12 true).length = 12 :=
  ⟨⟨inv_scanning_131, rfl, rfl, by decide⟩,
    ⟨_, inv_of_checks _ (by decide) (by decide) (by decide) (by decide), by decide, by decide, rfl⟩, by simp⟩

theorem witness_LoadFillsTheSymbolBuffer :
    State.reset.params.wf = true ∧ State.reset.Inv ∧ State.reset.txActive = false ∧
    (List.replicate 84 (0x15 : Byte)).length ≤ State.reset.params.txBufCap :=
  ⟨by decide, inv_reset, rfl, by simp [State.reset, Params.p0]⟩

theorem witness_MessageFitsTheSymbolBuffer :
    Params.p0.wf = true ∧ Params.p0.linkLayer = true ∧ Params.p0.headerSize = 5 ∧
    (List.replicate 30 (0xFF : Byte)).length ≤ Params.p0.payloadMax := ⟨by decide, rfl, rfl, by simp [Params.p0]⟩

/-- Its own device, BROADCAST, another device. -/
theorem witness_BuiltFrameIsReceivedByItsAddresseeOnly :
    ((⟨0xC05A, 1, 2, 7⟩ : Header).network = 0xC05A ∧
      ((⟨0xC05A, 1, 2, 7⟩ : Header).dest = 1 ∨ (⟨0xC05A, 1, 2, 7⟩ : Header).dest = 0xFF)) ∧
    ((⟨0xC05A, 0xFF, 2, 7⟩ : Header).dest = 0xFF) ∧
    ¬((⟨0xC05A, 1, 2, 7⟩ : Header).network = 0xC05A ∧
      ((⟨0xC05A, 1, 2, 7⟩ : Header).dest = 3 ∨ (⟨0xC05A, 1, 2, 7⟩ : Header).dest = 0xFF)) := by decide

/-- An idle sender, a receiver inside a frame, a payload of 30 bytes with its ticks and no more. -/
theorem witness_RoundTripReproducesTheMessage :
    (sending false 0 0 2 false).Inv ∧ (sending false 0 0 2 false).params = Params.p0 ∧
    (sending false 0 0 2 false).txActive = false ∧ (collecting (scanning 140 8 true 0x332) 11 1 10 [(0, 10)]).Inv ∧
    (collecting (scanning 140 8 true 0x332) 11 1 10 [(0, 10)]).params = Params.p0 ∧
    (List.replicate 30 (0xFF : Byte)).length ≤ 30 ∧
    8 * ((8 + 2 * (8 + (List.replicate 30 (0xFF : Byte)).length)) * 6) + 1 ≤ (List.replicate 4033 true).length :=
  ⟨inv_idle, rfl, rfl, inv_second_byte, rfl, by simp, by simp only [List.length_replicate, Nat.le_refl]⟩

theorem witness_FlippedBitIsAChecksumMismatch :
    37 < (buildFrame ⟨0xC05A, 1, 2, 7⟩ (List.replicate 30 0xFF)).length ∧ 7 < 8 ∧
    29 < (List.replicate 30 (0xFF : Byte)).length := ⟨by simp [buildFrame, frameBody, lowFirst], by decide, by simp⟩

/-- Waits that end at once and that do not, a held frame and one that may be replaced, a frame for each result of the checks,
payloads and transmitters on either side, ticks before a command, a bit rate in range and one out of range, gaps that see a
transmission end. -/
theorem witness_DriverFollowsTheContract :
    (rxWaitOver (waiting State.reset).statusWord = true ∧ rxWaitOver State.reset.statusWord = false) ∧
    ((waiting (scanning 151 7 true 0x671)).Inv ∧ (waiting (scanning 151 7 true 0x671)).rxReady = true ∧
      (waiting (scanning 151 7 true 0x671)).params.rxOverrun = .hold ∧
      State.reset.Inv ∧ State.reset.rxEnabled = false ∧ State.reset.rxReady = false) ∧
    (∃ u, runTicks [true] (sending true 0 0 0 false) = .next u ∧ u.txActive = true) ∧
    (Params.p0.linkLayer = true ∧ Params.p0.headerSize = 5 ∧ State.reset.txActive = false) ∧
    (checkFrame 0xC05A 1 0xFF (buildFrame ⟨0xC05A, 1, 2, 7⟩ []) = .message 2 7 [] ∧
      checkFrame 0xC05A 3 0xFF (buildFrame ⟨0xC05A, 1, 2, 7⟩ []) = .otherAddress ∧
      checkFrame 0xC05A 1 0xFF [8, 0, 0, 0, 0, 0, 0, 0] = .checksumMismatch) ∧
    (Params.p0.wf = true ∧ Params.p0.payloadMax < (List.replicate 31 (0 : Byte)).length ∧
      (List.replicate 30 (0 : Byte)).length ≤ Params.p0.payloadMax ∧ (sending true 0 0 0 false).txActive = true) ∧
    (configureTimer (· / ·) ⟨1000, [1, 8], 8⟩ 8 1 = some ⟨1, 125⟩ ∧
      configureTimer (· / ·) ⟨1000, [1, 8], 8⟩ 8 200 = none) ∧
    ((sending true 0 0 0 false).Inv ∧ 8 * (2 * 6 + 1) ≤ [List.replicate 104 true].flatten.length) :=
  ⟨by decide, ⟨inv_matching_held, rfl, rfl, inv_reset, rfl, rfl⟩, ⟨_, rfl, rfl⟩, ⟨rfl, rfl, rfl⟩,
    ⟨by decide +kernel, by decide +kernel, by decide +kernel⟩, ⟨by decide, by simp [Params.p0], by simp [Params.p0], rfl⟩,
    ⟨by decide, by decide⟩, inv_first_bit, by simp⟩

/-- The running maximum on candidates and none; a fitting prescaler that is the smallest of three; the table of divisors. -/
theorem witness_LargestFittingReloadIsChosen :
    chooseSetting 255 [⟨64, 20⟩, ⟨8, 160⟩, ⟨1, 1280⟩] = some ⟨8, 160⟩ ∧ chooseSetting 255 [⟨1, 1280⟩] = none ∧
    (configureTimer (· / ·) ⟨102400, [1, 8, 64], 8⟩ 8 10 = some ⟨8, 160⟩ ∧
      (8 ∈ [1, 8, 64] ∧ 0 < 64 ∧ 102400 / (64 * (10 * 8)) ≤ 2 ^ 8 - 1) ∧
      ∀ x ∈ [1, 8, 64], ∀ y ∈ [1, 8, 64], x ∣ y ∨ y ∣ x) := by decide

/-- No rounded quotient grows with the divisor (the hypothesis on the rounding). -/
theorem witness_LargestFittingReloadIsChosen_rounding (n : Nat) : ∀ d e, 0 < d → d ≤ e → n / e ≤ n / d :=
  fun _ _ h he => Nat.div_le_div_left he h

end Sys2Proof.Tests
end

section
/-! Encoding (30_encoding.md R90 to R96): decoding answers exactly the operation whose word stands there, so which words
spell what is read off the words of the eleven operations. -/

namespace Sys2Proof

/-! ### The fields of a word -/

@[simp] theorem opField_opWord (op : BitVec 4) (arg : Byte) : opField (opWord op arg) = op := by
  ext i hi
  interval_cases i <;> simp [opField, opWord]

@[simp] theorem rsvField_opWord (op : BitVec 4) (arg : Byte) : rsvField (opWord op arg) = 0 := by
  ext i hi
  interval_cases i <;> simp [rsvField, opWord]

@[simp] theorem argField_opWord (op : BitVec 4) (arg : Byte) : argField (opWord op arg) = arg := by
  ext i hi
  interval_cases i <;> simp [argField, opWord]

/-- A word whose `rsv` is 0 is put together again from its other two fields. -/
theorem opWord_opField_argField {w : Word} (h : rsvField w = 0) : opWord (opField w) (argField w) = w := by
  have bits (j : Nat) (hj : j < 4) : w.getLsbD (8 + j) = false := by
    simpa [rsvField, hj] using congrArg (·.getLsbD j) h
  have h8 := bits 0; have h9 := bits 1; have h10 := bits 2; have h11 := bits 3
  ext i hi
  interval_cases i <;> simp_all [opField, argField, opWord]

/-- A word with `rsv` 0, from the number in its `op` field. -/
theorem eq_opWord {w : Word} {op : Nat} (hop : (opField w).toNat = op) (hrsv : rsvField w = 0) :
    w = opWord (BitVec.ofNat 4 op) (argField w) := by
  rw [← hop, BitVec.ofNat_toNat, BitVec.setWidth_eq, opWord_opField_argField hrsv]

/-- The mask of format A keeps `op`. -/
theorem opField_and_mask (w : Word) : opField (w &&& 0xFF00) = opField w := by
  ext i hi
  interval_cases i <;> simp [opField]

/-- The mask of format A keeps `rsv`. -/
theorem rsvField_and_mask (w : Word) : rsvField (w &&& 0xFF00) = rsvField w := by
  ext i hi
  interval_cases i <;> simp [rsvField]

/-- A row of format A selects no other words than those of its `op`, with any operand. -/
theorem eq_opWord_of_and_mask {w : Word} {op : BitVec 4} (h : w &&& 0xFF00 = opWord op 0) :
    opWord op (argField w) = w := by
  have hop : opField w = op := by rw [← opField_and_mask, h, opField_opWord]
  have hrsv : rsvField w = 0 := by rw [← rsvField_and_mask, h, rsvField_opWord]
  rw [← hop, opWord_opField_argField hrsv]

/-- The row of format T selects no other words than the two of `TICK`. -/
theorem encode_tick_of_and_mask {w : Word} (h : w &&& 0xFFFE = 0xF000) : encode (.tick (w.getLsbD 0)) = w := by
  have bits (j : Nat) : (w.getLsbD j && (0xFFFE : Word).getLsbD j) = (0xF000 : Word).getLsbD j := by
    rw [← BitVec.getLsbD_and, h]
  clear h
  ext i hi
  have hbit := bits i
  interval_cases i <;> simp_all [encode, opWord]

/-! ### What decoding answers -/

theorem formatN_eq_ok {arg : Byte} {i j : Instr} : formatN arg i = .ok j ↔ arg = 0 ∧ i = j := by
  unfold formatN
  split <;> simp_all

/-- A byte whose upper seven bits are 0 is its bit 0. -/
theorem eq_bit_of_shiftRight_one {arg : Byte} (h : arg >>> 1 = 0) :
    arg = BitVec.setWidth 8 (BitVec.ofBool (arg.getLsbD 0)) := by
  have bits (j : Nat) : arg.getLsbD (1 + j) = false := by simpa using congrArg (·.getLsbD j) h
  ext i hi
  cases i with
  | zero => simp
  | succ j => simpa [Nat.add_comm, ← BitVec.getLsbD_eq_getElem] using bits j

theorem tick_of_formatT {arg : Byte} {i : Instr} (h : formatT arg = .ok i) :
    ∃ x, arg = BitVec.setWidth 8 (BitVec.ofBool x) ∧ i = .tick x := by
  unfold formatT at h
  split at h
  next h0 => exact ⟨_, eq_bit_of_shiftRight_one h0, (Except.ok.inj h).symm⟩
  · cases h

/-- Decoding undoes encoding. -/
theorem decodeRunWord_encode (i : Instr) : decodeRunWord (encode i) = .ok i := by
  cases i with
  | tick x => cases x <;> rfl
  | _ => simp [encode, decodeRunWord, formatN]

/-- Encoding undoes decoding: an answered operation's word is the word decoded. -/
theorem encode_of_decodeRunWord {w : Word} {i : Instr} (h : decodeRunWord w = .ok i) : encode i = w := by
  unfold decodeRunWord at h
  split at h
  · cases h
  next hrsv =>
    rw [ne_eq, not_not] at hrsv
    split at h
    case h_3 hop | h_7 hop | h_9 hop => -- format A
      cases h
      exact (eq_opWord hop hrsv).symm
    case h_11 hop => -- format T
      obtain ⟨x, harg, rfl⟩ := tick_of_formatT h
      rw [eq_opWord hop hrsv, harg]
      rfl
    case h_12 => cases h
    all_goals -- format N
      rename_i hop
      obtain ⟨harg, rfl⟩ := formatN_eq_ok.1 h
      rw [eq_opWord hop hrsv, harg]
      rfl

/-- A word decodes to an operation exactly if it is that operation's word. -/
theorem decodeRunWord_eq_ok {w : Word} {i : Instr} : decodeRunWord w = .ok i ↔ encode i = w :=
  ⟨encode_of_decodeRunWord, fun h => h ▸ decodeRunWord_encode i⟩

/-- A word that is no operation's word is rejected. -/
theorem decodeRunWord_eq_error {w : Word} (h : ∀ i, encode i ≠ w) : ∃ r, decodeRunWord w = .error r := by
  cases hd : decodeRunWord w with
  | ok i => exact absurd (encode_of_decodeRunWord hd) (h i)
  | error r => exact ⟨r, rfl⟩

/-- The operations with `op` 0xF are the ones that may not come on the command port. -/
theorem opField_encode_eq_tick {i : Instr} : opField (encode i) = 0xF ↔ i.wf .command = false := by
  cases i <;> simp [encode, Instr.wf]

/-- A word on the command port decodes to an operation exactly if it is the word of a command. -/
theorem decodeCommand_eq_ok {w : Word} {i : Instr} :
    decodeCommand w = .ok i ↔ i.wf .command = true ∧ encode i = w := by
  unfold decodeCommand
  split
  next hop =>
    simp only [reduceCtorEq, false_iff, not_and]
    rintro hi rfl
    rw [opField_encode_eq_tick.1 hop] at hi
    cases hi
  next hop =>
    rw [decodeRunWord_eq_ok, iff_and_self]
    rintro rfl
    rwa [opField_encode_eq_tick, Bool.not_eq_false] at hop

/-- A word that is no command's word is rejected on the command port. -/
theorem decodeCommand_eq_error {w : Word} (h : ∀ i : Instr, i.wf .command = true → encode i ≠ w) :
    ∃ r, decodeCommand w = .error r := by
  cases hd : decodeCommand w with
  | ok i =>
    obtain ⟨hi, hw⟩ := decodeCommand_eq_ok.1 hd
    exact absurd hw (h i hi)
  | error r => exact ⟨r, rfl⟩

/-! ### The opcode map -/

/-- Settles O2: the words a row selects are those of the row's operation, and every operation's word lies in its row. -/
theorem opcodeMapSelectsTheOperation : Obligations.OpcodeMapSelectsTheOperation := by
  intro w
  have rowN (i : Instr) (h : w &&& 0xFFFF = encode i) : decodeRunWord w = .ok i :=
    decodeRunWord_eq_ok.2 (h.symm.trans BitVec.and_allOnes)
  have rowA (i : Instr) (op : BitVec 4) (hi : encode i = opWord op (argField w)) (h : w &&& 0xFF00 = opWord op 0) :
      decodeRunWord w = .ok i :=
    decodeRunWord_eq_ok.2 (hi.trans (eq_opWord_of_and_mask h))
  refine ⟨rowN .nop, rowN .reset, rowA (.csrRd _) 0x2 rfl, rowN .rxEnable, rowN .rxDisable,
    rowN .rxClear, rowA (.rxRead _) 0x6 rfl, rowN .txClear, rowA (.txPush _) 0x8 rfl, rowN .txStart,
    fun h => decodeRunWord_eq_ok.2 (encode_tick_of_and_mask h), fun hN hA hT => decodeRunWord_eq_error ?_⟩
  rintro i rfl
  cases i with
  | csrRd n => exact hA (by rw [encode, Laws.Row.opWord_and_mask]; decide)
  | rxRead k => exact hA (by rw [encode, Laws.Row.opWord_and_mask]; decide)
  | txPush e => exact hA (by rw [encode, Laws.Row.opWord_and_mask]; decide)
  | tick x => exact hT (Laws.Row.tick x)
  | _ => exact hN (by decide)

end Sys2Proof

namespace Sys2Proof.Machine

/-! ### Words that spell no command -/

/-- The words that 30_encoding.md R96 calls illegal on the command port. -/
def SpellsNoCommand (w : Word) : Prop :=
  10 ≤ (opField w).toNat ∨ rsvField w ≠ 0 ∨ ((opField w).toNat ∉ [2, 6, 8] ∧ argField w ≠ 0)

/-- No command's word is illegal. -/
theorem not_spellsNoCommand_encode {i : Instr} (hi : i.wf .command = true) : ¬SpellsNoCommand (encode i) := by
  cases i with
  | tick x => cases hi
  | _ => simp [SpellsNoCommand, encode]

/-- Every word that is not illegal is a command's word. -/
theorem exists_command_of_not_spellsNoCommand {w : Word} (h : ¬SpellsNoCommand w) :
    ∃ i : Instr, i.wf .command = true ∧ encode i = w := by
  simp only [SpellsNoCommand, not_or, not_and, not_not, not_le] at h
  obtain ⟨hlt, hrsv, harg⟩ := h
  have wordA : opWord (BitVec.ofNat 4 (opField w).toNat) (argField w) = w := (eq_opWord rfl hrsv).symm
  have wordN (hN : (opField w).toNat ∉ [2, 6, 8]) : opWord (BitVec.ofNat 4 (opField w).toNat) 0 = w := by
    rw [← harg hN, wordA]
  interval_cases (opField w).toNat
  · exact ⟨.nop, rfl, wordN (by decide)⟩
  · exact ⟨.reset, rfl, wordN (by decide)⟩
  · exact ⟨.csrRd _, rfl, wordA⟩
  · exact ⟨.rxEnable, rfl, wordN (by decide)⟩
  · exact ⟨.rxDisable, rfl, wordN (by decide)⟩
  · exact ⟨.rxClear, rfl, wordN (by decide)⟩
  · exact ⟨.rxRead _, rfl, wordA⟩
  · exact ⟨.txClear, rfl, wordN (by decide)⟩
  · exact ⟨.txPush _, rfl, wordA⟩
  · exact ⟨.txStart, rfl, wordN (by decide)⟩

/-- An illegal word is answered `ILLEGAL`, with nothing else changed. -/
theorem runCommand_of_spellsNoCommand {w : Word} (h : SpellsNoCommand w) {s : State} (hs : s.params.wf = true) :
    runCommand w s = .next (s.refuse .illegal) := by
  obtain ⟨r, hr⟩ := decodeCommand_eq_error (w := w) fun i hi hw => not_spellsNoCommand_encode hi (hw ▸ h)
  rw [runCommand_error hr, complete_of_wf hs]

/-- A command's word runs the command. -/
theorem runCommand_encode {i : Instr} (hi : i.wf .command = true) (s : State) : runCommand (encode i) s = exec i s :=
  runCommand_ok (decodeCommand_eq_ok.2 ⟨hi, rfl⟩) s

/-- `CSR_RD` of a number past the last CSR is answered `RANGE`, with nothing else changed (44_host_system_commands.md
R192). -/
theorem exec_csrRd_range {s : State} (hs : s.params.wf = true) {n : Byte} (hn : 8 ≤ n.toNat) :
    exec (.csrRd n) s = .next (s.refuse .range) := by
  simp [exec, execCsrRd, State.csr_eq_none hn, hs]

/-- `RX_READ` past the end of RXBUF is answered `RANGE`, with nothing else changed (42_host_rx_commands.md R173). -/
theorem exec_rxRead_range {s : State} (hs : s.params.wf = true) {i : Byte} (hi : s.params.rxBufCap ≤ i.toNat) :
    exec (.rxRead i) s = .next (s.refuse .range) := by
  simp [exec, execRxRead, State.rxByte, Nat.not_lt.2 hi, hs]

/-- A tick's word has `rsv` 0 and nothing above bit 0 of `arg`. -/
theorem encode_tick_fields (x : Bool) :
    rsvField (encode (.tick x)) = 0 ∧ (encode (.tick x)).extractLsb' 1 7 = 0 := by
  cases x <;> decide

/-- Settles O4: a word is the word of one of the ten commands exactly if R96 does not call it illegal. -/
theorem wordsThatSpellNoCommandAreIllegal : Obligations.WordsThatSpellNoCommandAreIllegal := by
  rintro w op rsv arg (rfl : op = (opField w).toNat) (rfl : rsv = rsvField w) (rfl : arg = argField w)
  refine ⟨fun h s hs => runCommand_of_spellsNoCommand h hs, fun h => ?_, fun hop hrsv hn s hs => ?_,
    fun hop hrsv s hs hi => ?_, fun hop hbits => decodeRunWord_eq_error ?_⟩
  · obtain ⟨i, hi, rfl⟩ := exists_command_of_not_spellsNoCommand h
    exact ⟨i, hi, runCommand_encode hi⟩
  · have hw : encode (.csrRd (argField w)) = w := (eq_opWord hop hrsv).symm
    rw [← hw, runCommand_encode rfl, exec_csrRd_range hs hn]
    rfl
  · have hw : encode (.rxRead (argField w)) = w := (eq_opWord hop hrsv).symm
    rw [← hw, runCommand_encode rfl, exec_rxRead_range hs hi]
    rfl
  · rintro i rfl
    have hi : i.wf .command = false := opField_encode_eq_tick.1 (BitVec.eq_of_toNat_eq hop)
    cases i with
    | tick x => simp [encode_tick_fields] at hbits
    | _ => cases hi

end Sys2Proof.Machine
end

section
/-! The codec (30_encoding.md R97 to R100): a table without repetitions is inverted by looking up positions, and the two
symbols of the window are the two halves of its number. -/

namespace Sys2Proof.Machine

/-- In a list without repetitions each entry is found where it stands. -/
theorem position_getElem {l : List Byte} (hl : Params.distinct l = true) {n : Nat} (hn : n < l.length) :
    position l[n] l = some n := by
  induction l generalizing n with
  | nil => cases hn
  | cons e l ih =>
    simp only [Params.distinct, Bool.and_eq_true, Bool.not_eq_true', List.contains_eq_mem,
      decide_eq_false_iff_not] at hl
    obtain ⟨he, hl⟩ := hl
    cases n with
    | zero => simp [position]
    | succ n =>
      have hn : n < l.length := Nat.lt_of_succ_lt_succ hn
      have hne : e ≠ l[n] := fun h => he (h ▸ List.getElem_mem hn)
      simp [position, hne, ih hl hn]

/-- What 00_scope.md R11 item 5 gives: sixteen distinct symbols of `W` bits. -/
theorem codec_facts {p : Params} (h : p.wf = true) :
    p.enc.length = 16 ∧ (∀ s ∈ p.enc, s.toNat < 2 ^ p.symbolBits) ∧ Params.distinct p.enc = true := by
  have hc : p.codecOk = true := by simp_all [Params.wf]
  simpa [Params.codecOk, Params.allBelow] using hc

/-- In a table of sixteen entries the symbol of a nibble is the entry with its number. -/
theorem enc4_eq_getElem {p : Params} (h : p.enc.length = 16) (n : Nibble) : enc4 p n = p.enc[n.toNat]'(by omega) :=
  List.getD_eq_getElem _ _ _

/-- `enc4` has values of `W` bits. -/
theorem enc4_lt {p : Params} (h : p.wf = true) (n : Nibble) : (enc4 p n).toNat < 2 ^ p.symbolBits := by
  obtain ⟨hlen, hlt, -⟩ := codec_facts h
  rw [enc4_eq_getElem hlen]
  exact hlt _ (List.getElem_mem _)

/-- `dec4` undoes `enc4`, whatever the draw. -/
theorem dec4_enc4 {p : Params} (h : p.wf = true) (d n : Nibble) : dec4 p d (enc4 p n) = n := by
  obtain ⟨hlen, -, hdistinct⟩ := codec_facts h
  simp [dec4, nibbleOf, enc4_eq_getElem hlen, position_getElem hdistinct]

/-- A byte of two nibbles as a number. -/
theorem joinNibbles_toNat (hi lo : Nibble) : (joinNibbles hi lo).toNat = 16 * hi.toNat + lo.toNat := by
  have hhi : hi.toNat < 2 ^ 4 := hi.isLt
  have hlo : lo.toNat < 2 ^ 4 := lo.isLt
  have hshift : (hi.setWidth 8 <<< 4).toNat = hi.toNat <<< 4 := by
    rw [BitVec.toNat_shiftLeft, BitVec.toNat_setWidth_of_le (by decide), Nat.shiftLeft_eq, Nat.mod_eq_of_lt (by omega)]
  rw [joinNibbles, BitVec.toNat_or, hshift, BitVec.toNat_setWidth_of_le (by decide),
    ← Nat.shiftLeft_add_eq_or_of_lt hlo, Nat.shiftLeft_eq, Nat.mul_comm]

/-- A window that two symbols make up, the second above the first, has them as its older and newer symbol. -/
theorem symbols_of_window {p : Params} {h : Word} {newer older : Byte} (hnewer : newer.toNat < 2 ^ p.symbolBits)
    (holder : older.toNat < 2 ^ p.symbolBits) (hh : h.toNat = newer.toNat * 2 ^ p.symbolBits + older.toNat) :
    olderSymbol p h = older ∧ newerSymbol p h = newer := by
  have hmod : h.toNat % 2 ^ p.symbolBits = older.toNat := by
    rw [hh, Nat.mul_add_mod_of_lt holder]
  have hdiv : h.toNat / 2 ^ p.symbolBits = newer.toNat := by
    rw [hh, Nat.add_comm, Nat.add_mul_div_right _ _ (Nat.two_pow_pos _), Nat.div_eq_of_lt holder, Nat.zero_add]
  simp [olderSymbol, newerSymbol, bitField, hmod, hdiv, Nat.mod_eq_of_lt hnewer]

/-- `decode8` inverts two consecutive encodings, high nibble first. -/
theorem decode8_enc4 {p : Params} (hp : p.wf = true) (dHi dLo : Nibble) {hi lo : Nibble} {h : Word}
    (hh : h.toNat = (enc4 p lo).toNat * 2 ^ p.symbolBits + (enc4 p hi).toNat) :
    decode8 p dHi dLo h = joinNibbles hi lo := by
  obtain ⟨holder, hnewer⟩ := symbols_of_window (enc4_lt hp lo) (enc4_lt hp hi) hh
  rw [decode8, holder, hnewer, dec4_enc4 hp, dec4_enc4 hp]

/-- Settles O14: the two halves of the window by definition, the inversion by `decode8_enc4`. -/
theorem decodeEightTakesTheOlderSymbolHigh : Obligations.DecodeEightTakesTheOlderSymbolHigh := by
  refine ⟨fun p dHi dLo h => ?_, fun dHi dLo => ?_, fun p dHi dLo hi lo h hp hh => ?_⟩
  · simp [decode8, joinNibbles_toNat, olderSymbol, newerSymbol, bitField]
  · exact decode8_enc4 (hi := 0x0) (lo := 0xA) (by decide) dHi dLo (by decide)
  · rw [decode8_enc4 hp dHi dLo hh, joinNibbles_toNat]

end Sys2Proof.Machine
end

section
/-! The receive half of a tick (40_tick_rx.md R120 to R136): under the invariants the transmit half never stops, and it
hands the receive half the receive group as it was at entry, so a tick of a running receiver is one of the model's own
updates of that group. -/

namespace Sys2Proof.Machine

namespace State

/-! ### The receive group behind the transmit half -/

/-- The state with the registers the transmit half may write taken from `u`, everything else kept. -/
def withTransmitter (s u : State) : State :=
  { s with txActive := u.txActive, txSample := u.txSample, txBit := u.txBit, txIndex := u.txIndex, txOut := u.txOut }

@[simp] theorem withTransmitter_params (s u : State) : (s.withTransmitter u).params = s.params := rfl
@[simp] theorem withTransmitter_rxEnabled (s u : State) : (s.withTransmitter u).rxEnabled = s.rxEnabled := rfl
@[simp] theorem withTransmitter_rxActive (s u : State) : (s.withTransmitter u).rxActive = s.rxActive := rfl
@[simp] theorem withTransmitter_rxReady (s u : State) : (s.withTransmitter u).rxReady = s.rxReady := rfl
@[simp] theorem withTransmitter_ramp (s u : State) : (s.withTransmitter u).ramp = s.ramp := rfl
@[simp] theorem withTransmitter_integ (s u : State) : (s.withTransmitter u).integ = s.integ := rfl
@[simp] theorem withTransmitter_lastSample (s u : State) : (s.withTransmitter u).lastSample = s.lastSample := rfl
@[simp] theorem withTransmitter_hist (s u : State) : (s.withTransmitter u).hist = s.hist := rfl
@[simp] theorem withTransmitter_bitCount (s u : State) : (s.withTransmitter u).bitCount = s.bitCount := rfl
@[simp] theorem withTransmitter_bufLen (s u : State) : (s.withTransmitter u).bufLen = s.bufLen := rfl
@[simp] theorem withTransmitter_expLen (s u : State) : (s.withTransmitter u).expLen = s.expLen := rfl
@[simp] theorem withTransmitter_rxBuf (s u : State) : (s.withTransmitter u).rxBuf = s.rxBuf := rfl
@[simp] theorem withTransmitter_resets (s u : State) : (s.withTransmitter u).resets = s.resets := rfl
@[simp] theorem withTransmitter_byteAt (s u : State) (b : Buffer) (i : Nat) :
    (s.withTransmitter u).byteAt b i = s.byteAt b i := byteAt_congr b (by cases b <;> rfl) rfl i
@[simp] theorem withTransmitter_rxRuns (s u : State) (busy : Bool) :
    (s.withTransmitter u).rxRuns busy = s.rxRuns busy := rfl
@[simp] theorem withTransmitter_rampSum (s u : State) (x : Bool) :
    (s.withTransmitter u).rampSum x = s.rampSum x := rfl
@[simp] theorem withTransmitter_integSum (s u : State) (x : Bool) :
    (s.withTransmitter u).integSum x = s.integSum x := rfl
@[simp] theorem withTransmitter_isBitTick (s u : State) (x : Bool) :
    (s.withTransmitter u).isBitTick x = s.isBitTick x := rfl
@[simp] theorem withTransmitter_decidedBit (s u : State) (x : Bool) :
    (s.withTransmitter u).decidedBit x = s.decidedBit x := rfl

/-- The receiver runs exactly if the model's own condition holds with `tx_active` at entry (R121). -/
theorem rxRuns_iff {s : State} : s.rxRuns s.txActive = true ↔ s.ReceiverRuns := by
  simp [rxRuns, ReceiverRuns, ← Bool.not_eq_true, ← not_and_or]

/-- What a byte of RXBUF is depends on the list of written bytes and the reset number only. -/
theorem rxByteAt_congr {s t : State} (hbuf : t.rxBuf = s.rxBuf) (hresets : t.resets = s.resets) (i : Nat) :
    t.byteAt .rx i = s.byteAt .rx i :=
  byteAt_congr .rx hbuf hresets i

/-- A store puts its byte at `buf_len` and keeps every other byte (R135). -/
theorem byteAt_storeByte (d : Byte) (s : State) (a : Nat) :
    (s.storeByte d).byteAt .rx a = if a = s.bufLen.toNat then d else s.byteAt .rx a := by
  simp only [byteAt, memory, storeByte_rxBuf, storeByte_resets, Memory.read_write]
  split <;> rfl

end State

/-- The transmit half writes nothing but its own five registers. -/
theorem txHalf_eq_withTransmitter {s u : State} (h : txHalf s = .next u) : u = s.withTransmitter u := by
  obtain ⟨-, rfl⟩ | ⟨-, -, rfl⟩ | ⟨-, -, -, rfl⟩ | ⟨-, -, -, b, -, rfl⟩ := txHalf_cases h <;> rfl

/-- Under the invariants a bit is there to select while symbols are left (41_tick_tx.md R156, R158). -/
theorem State.Inv.txSelectedBit_of_not_allSent {s : State} (hs : s.Inv) (h : s.allSent = false) :
    ∃ b, s.txSelectedBit = some b := by
  have hp := Params.facts hs.params_wf
  have hleft : s.txIndex.toNat < s.txLen.toNat := by simpa [State.allSent] using h
  exact ⟨_, if_pos ⟨hleft.trans_le hs.txLen_le_cap, hs.txBit_lt.trans_le hp.symbolBits_le⟩⟩

/-- Under the invariants the transmit half goes on. -/
theorem State.Inv.txHalf_completes {s : State} (hs : s.Inv) : Completes (txHalf s) := by
  unfold txHalf
  split_ifs with _ _ hsent
  · exact ⟨_, rfl⟩
  · exact ⟨_, rfl⟩
  · exact ⟨_, rfl⟩
  · obtain ⟨b, hb⟩ := hs.txSelectedBit_of_not_allSent (eq_false_of_ne_true hsent)
    exact ⟨_, by rw [hb]⟩

/-! ### What a tick of a running receiver is -/

/-- Under the invariants a tick is the receive half of the state at entry, the transmitter's own registers aside. -/
theorem State.Inv.execTick_eq_rxHalf {s : State} (hs : s.Inv) (x : Bool) :
    ∃ u, exec (.tick x) s =
      rxHalf s.txActive x (Config.freeNibble s.draws) (Config.freeNibble (s.draws + 1)) (s.withTransmitter u) := by
  obtain ⟨u, hu⟩ := hs.txHalf_completes
  refine ⟨u, ?_⟩
  rw [execTick_of_wf hs.params_wf, hu, andThen_next, ← txHalf_eq_withTransmitter hu]

/-- A tick of a running receiver below `RAMP_MAX` only advances the phase (R124 to R126). -/
theorem execTick_below {s : State} {x : Bool} (hs : s.Inv) (hr : s.ReceiverRuns) (hb : s.isBitTick x = false) :
    ∃ u, exec (.tick x) s = .next ((s.withTransmitter u).advancePhase x) := by
  obtain ⟨u, hu⟩ := hs.execTick_eq_rxHalf x
  exact ⟨u, by simp [hu, rxHalf, State.rxRuns_iff.2 hr, hb]⟩

/-- A bit tick of a running receiver decides and shifts, and then takes the bit (R124, R127, R128). -/
theorem execTick_bit {s : State} {x : Bool} (hs : s.Inv) (hr : s.ReceiverRuns) (hb : s.isBitTick x = true) :
    ∃ u, exec (.tick x) s =
      receiveBit (Config.freeNibble s.draws) (Config.freeNibble (s.draws + 1)) ((s.withTransmitter u).shiftBit x) := by
  obtain ⟨u, hu⟩ := hs.execTick_eq_rxHalf x
  exact ⟨u, by simp [hu, rxHalf, State.rxRuns_iff.2 hr, hb]⟩

/-- A bit tick outside a frame looks for the start symbol (R129, R130). -/
theorem execTick_scan {s : State} {x : Bool} (hs : s.Inv) (hr : s.ReceiverRuns) (hb : s.isBitTick x = true)
    (ha : s.rxActive = false) : ∃ u, exec (.tick x) s = .next (scanBit ((s.withTransmitter u).shiftBit x)) := by
  obtain ⟨u, hu⟩ := execTick_bit hs hr hb
  exact ⟨u, by simp [hu, receiveBit, ha]⟩

/-- The bit tick that completes a byte of a frame takes the decoded window (R131, R132). -/
theorem execTick_byte {s : State} {x : Bool} {d : Byte} (hs : s.Inv) (hr : s.ReceiverRuns)
    (hb : s.isBitTick x = true) (ha : s.rxActive = true) (hc : s.bitCount.toNat + 1 = 2 * s.params.symbolBits)
    (hd : d = decode8 s.params (Config.freeNibble s.draws) (Config.freeNibble (s.draws + 1))
      (State.shiftIn s.params s.hist (s.decidedBit x))) :
    ∃ u, exec (.tick x) s = receiveByte d ((s.withTransmitter u).shiftBit x).takeByte := by
  obtain ⟨u, hu⟩ := execTick_bit hs hr hb
  exact ⟨u, by simp [hu, hd, receiveBit, State.completesByte, ha, hc]⟩

/-! ### What a bit tick leaves of the shift -/

/-- Taking the bit leaves the PLL's registers and the history as the shift put them. -/
theorem receiveBit_keeps_shift {dHi dLo : Nibble} {s t : State} (h : receiveBit dHi dLo s = .next t) :
    t.ramp = s.ramp ∧ t.integ = s.integ ∧ t.lastSample = s.lastSample ∧ t.hist = s.hist := by
  obtain ⟨-, rfl⟩ | ⟨-, -, rfl⟩ | ⟨-, -, h⟩ := receiveBit_cases h
  · obtain ⟨-, -, hramp, hinteg, hlast, hhist, -⟩ := scanBit_frame s
    exact ⟨hramp, hinteg, hlast, hhist⟩
  · exact ⟨rfl, rfl, rfl, rfl⟩
  · obtain ⟨-, -, hramp, hinteg, hlast, hhist, -⟩ := receiveByte_frame h
    exact ⟨hramp, hinteg, hlast, hhist⟩

/-- A receive half that does not run changes nothing (R121). -/
theorem rxHalf_of_not_runs {busy x : Bool} {dHi dLo : Nibble} {s : State} (hr : s.rxRuns busy = false) :
    rxHalf busy x dHi dLo s = .next s := by
  simp [rxHalf, hr]

/-- A running receive half remembers the sample (R124). -/
theorem rxHalf_lastSample {busy x : Bool} {dHi dLo : Nibble} {s t : State} (hr : s.rxRuns busy = true)
    (h : rxHalf busy x dHi dLo s = .next t) : t.lastSample = x := by
  obtain ⟨hr', -⟩ | ⟨-, -, rfl⟩ | ⟨-, -, h⟩ := rxHalf_cases h
  · rw [hr] at hr'
    cases hr'
  · rfl
  · obtain ⟨-, -, hlast, -⟩ := receiveBit_keeps_shift h
    exact hlast

/-- Settles O35: the sample is remembered in both branches of a running half, and behind the transmit half the receive
group is the one at entry. -/
theorem receiveHalfRunsOnlyWhenEnabledAndUngated : Obligations.ReceiveHalfRunsOnlyWhenEnabledAndUngated := by
  intro s t x h
  obtain ⟨-, u, hu, h⟩ := execTick_eq_next.1 h
  rw [txHalf_eq_withTransmitter hu] at h
  constructor
  · intro hr
    exact rxHalf_lastSample ((s.withTransmitter_rxRuns u _).trans (State.rxRuns_iff.2 hr)) h
  · intro hr
    have hidle := (s.withTransmitter_rxRuns u _).trans (eq_false_of_ne_true (mt State.rxRuns_iff.1 hr))
    rw [rxHalf_of_not_runs hidle] at h
    cases h
    simp [State.SameReceiveGroup]

/-! ### The ramp and the integrator -/

/-- `inc` in the spec's words (R122, R123). -/
theorem State.rampStep_eq {s : State} (hp : s.params.Facts) (x : Bool) :
    s.rampStep x = if x = s.lastSample then s.params.rampInc
      else if s.ramp.toNat < s.params.rampMax / 2 then s.params.rampIncRetard else s.params.rampIncAdvance := by
  by_cases hx : x = s.lastSample <;> simp [rampStep, isTransition, hp.transition_eq, hx]

/-- A decided bit enters a shifted history at bit `2W-1` (R127). -/
theorem State.shiftIn_decide (p : Params) (h : Word) (c : Prop) [Decidable c] :
    State.shiftIn p h (decide c) = h >>> 1 ||| (if c then (1 : Word) <<< (2 * p.symbolBits - 1) else 0) := by
  by_cases hc : c <;> simp [State.shiftIn, hc]

/-- Below `RAMP_MAX` the sum fits `ramp`. -/
theorem State.Inv.toNat_rampSum {s : State} {x : Bool} (hs : s.Inv) (h : s.rampSum x < s.params.rampMax) :
    (BitVec.ofNat 16 (s.rampSum x)).toNat = s.rampSum x := by
  have := (Params.facts hs.params_wf).ramp_fits
  rw [BitVec.toNat_ofNat, Nat.mod_eq_of_lt (by omega)]

/-- Below `RAMP_MAX` the integrator does not overflow: each high sample counted has moved the ramp by at least the retard
increment (R125, 00_scope.md R11 item 9). -/
theorem State.Inv.toNat_integSum {s : State} {x : Bool} (hs : s.Inv) (h : s.rampSum x < s.params.rampMax) :
    (BitVec.ofNat 8 (s.integSum x)).toNat = s.integSum x := by
  have hp := Params.facts hs.params_wf
  have hstep := (s.rampStep_bounds hp x).1
  have hmoved : s.integSum x * s.params.rampIncRetard ≤ s.params.rampMax :=
    calc s.integSum x * s.params.rampIncRetard
        = s.integ.toNat * s.params.rampIncRetard + x.toNat * s.params.rampIncRetard := Nat.add_mul ..
      _ ≤ s.ramp.toNat + s.rampStep x :=
        Nat.add_le_add hs.integ_ramp ((Nat.mul_le_mul_right _ (Bool.toNat_le x)).trans (by simpa using hstep))
      _ ≤ s.params.rampMax := h.le
  have hle := (Params.le_ceilDiv hp.one_le_retard hmoved).trans hp.integ_fits
  rw [BitVec.toNat_ofNat, Nat.mod_eq_of_lt (by omega)]

/-- What a wrap leaves of the ramp lies below the advance increment (R126). -/
theorem State.Inv.rampRest_lt {s : State} (hs : s.Inv) (x : Bool) :
    s.rampSum x - s.params.rampMax < s.params.rampIncAdvance := by
  have hp := Params.facts hs.params_wf
  have hstep := (s.rampStep_bounds hp x).2
  have hramp := hs.ramp_lt
  have := hp.one_le_retard
  have := hp.retard_le
  have := hp.inc_le
  unfold State.rampSum
  omega

/-- What a wrap leaves of the ramp fits `ramp`. -/
theorem State.Inv.toNat_rampRest {s : State} (hs : s.Inv) (x : Bool) :
    (BitVec.ofNat 16 (s.rampSum x - s.params.rampMax)).toNat = s.rampSum x - s.params.rampMax := by
  have := hs.rampRest_lt x
  have := (Params.facts hs.params_wf).ramp_fits
  rw [BitVec.toNat_ofNat, Nat.mod_eq_of_lt (by omega)]

/-! ### Taking a bit and a byte -/

/-- The start symbol opens a frame unless one waits under `HOLD` (R130). -/
theorem State.startsFrame_iff {s : State} : s.startsFrame = true ↔
    s.hist = s.params.startSymbol ∧ (s.rxReady = false ∨ s.params.rxOverrun = .replace) := by
  simp [State.startsFrame]

/-- Inside a frame there is room for one more byte (R139). -/
theorem State.Inv.bufLen_lt_of_active {s : State} (hs : s.Inv) (ha : s.rxActive = true) :
    s.bufLen.toNat < s.params.rxBufCap := by
  have hp := Params.facts hs.params_wf
  have := hp.one_le_messageMin
  have := hp.messageMin_le
  have := hp.messageMax_le
  rcases Nat.eq_zero_or_pos s.bufLen.toNat with hzero | hpos
  · omega
  · have hpart := hs.active_partial ha hpos
    obtain ⟨-, hmax⟩ : _ ∧ s.expLen.toNat ≤ s.params.messageMax := by
      simpa [State.lengthOk] using hs.expLen_ok hpos
    omega

/-- A first byte out of range is noted as the length, and the frame abandoned (R134). -/
theorem receiveByte_of_outOfRange {d : Byte} {s : State} (hzero : s.bufLen = 0)
    (hd : State.lengthOk s.params d = false) : receiveByte d s = .next (s.noteLength d).abandonFrame := by
  simp [receiveByte, hzero, hd]

/-- An accepted byte is noted as the length if it is the first, and stored (R133, R135). -/
theorem receiveByte_of_accepted {d : Byte} {s : State} (hcap : s.bufLen.toNat < s.params.rxBufCap)
    (hd : s.bufLen = 0 → State.lengthOk s.params d = true) :
    receiveByte d s = .next ((s.noteLength (if s.bufLen = 0 then d else s.expLen)).storeByte d) := by
  by_cases hzero : s.bufLen = 0
  · simp only [receiveByte, if_pos hzero, hd hzero, if_true]
    exact storeOrStop_eq_next.2 ⟨hcap, rfl⟩
  · simp only [receiveByte, if_neg hzero]
    exact storeOrStop_eq_next.2 ⟨hcap, rfl⟩

/-- With room in the buffer taking the bit goes on. -/
theorem receiveBit_completes {s : State} (dHi dLo : Nibble)
    (hroom : s.rxActive = true → s.bufLen.toNat < s.params.rxBufCap) : Completes (receiveBit dHi dLo s) := by
  unfold receiveBit
  split_ifs with ha hc
  · exact ⟨_, rfl⟩
  · exact ⟨_, rfl⟩
  · have hcap := hroom (by simpa using ha)
    by_cases hd : s.takeByte.bufLen = 0 →
        State.lengthOk s.takeByte.params (decode8 s.params dHi dLo s.hist) = true
    · exact ⟨_, receiveByte_of_accepted hcap hd⟩
    · obtain ⟨hzero, hd⟩ := Classical.not_imp.1 hd
      exact ⟨_, receiveByte_of_outOfRange hzero (eq_false_of_ne_true hd)⟩

/-- A length below 255 grows by one without wrapping. -/
theorem toNat_add_one_of_lt {n : Byte} (hlt : n.toNat < 255) : (n + 1).toNat = n.toNat + 1 :=
  BitVec.toNat_add_of_lt (Nat.add_lt_add_right hlt 1)

/-- A store inside a frame ends it exactly if the new `buf_len` is at least the length (R136). -/
theorem storeByte_ends {s : State} (d : Byte) (ha : s.rxActive = true) (hready : s.rxReady = false)
    (hlt : s.bufLen.toNat < 255) :
    ((s.storeByte d).expLen.toNat ≤ (s.storeByte d).bufLen.toNat →
      (s.storeByte d).rxActive = false ∧ (s.storeByte d).rxReady = true) ∧
    ((s.storeByte d).bufLen.toNat < (s.storeByte d).expLen.toNat →
      (s.storeByte d).rxActive = true ∧ (s.storeByte d).rxReady = false) := by
  simp only [State.storeByte_expLen, State.storeByte_bufLen, State.storeByte_rxActive, State.storeByte_rxReady, ha,
    hready, toNat_add_one_of_lt hlt, State.completesFrame]
  constructor <;> intro h
  · simp [h]
  · simp [Nat.not_le.2 h]

/-! ### The obligations about bit ticks -/

/-- Settles O36: below `RAMP_MAX` the tick is `advancePhase`, whose sums fit their registers; from `RAMP_MAX` on it is
`shiftBit` and what keeps its result. -/
theorem rampAdvancesAndWrapsIntoABit : Obligations.RampAdvancesAndWrapsIntoABit := by
  intro s x inc hs hr hinc
  have hp := Params.facts hs.params_wf
  obtain rfl : s.rampStep x = inc := (s.rampStep_eq hp x).trans hinc.symm
  cases hb : s.isBitTick x with
  | false =>
    obtain ⟨u, hu⟩ := execTick_below hs hr hb
    have hlt : s.rampSum x < s.params.rampMax := by simpa [State.isBitTick] using hb
    refine ⟨_, hu, rfl, fun _ => ?_, fun hle => absurd hlt (Nat.not_lt.2 hle)⟩
    exact ⟨hs.toNat_rampSum hlt, hs.toNat_integSum hlt, rfl, rfl, rfl, rfl, rfl, rfl, fun i => rfl⟩
  | true =>
    obtain ⟨u, hu⟩ := execTick_bit hs hr hb
    have hle : s.params.rampMax ≤ s.rampSum x := by simpa [State.isBitTick] using hb
    obtain ⟨t, ht⟩ := receiveBit_completes (s := (s.withTransmitter u).shiftBit x) (Config.freeNibble s.draws)
      (Config.freeNibble (s.draws + 1)) hs.bufLen_lt_of_active
    obtain ⟨hramp, hinteg, hlast, hhist⟩ := receiveBit_keeps_shift ht
    have htoNat : t.ramp.toNat = s.rampSum x - s.params.rampMax := by
      rw [hramp]
      exact hs.toNat_rampRest x
    refine ⟨t, hu.trans ht, hlast, fun hlt => absurd hle (Nat.not_le.2 hlt), fun _ => ⟨htoNat, ?_, hinteg, ?_, ?_⟩⟩
    · exact htoNat ▸ hs.rampRest_lt x
    · exact hhist.trans (State.shiftIn_decide ..)
    · rw [hhist]
      exact State.shiftIn_lt hp hs.hist_lt _

/-- Settles O37: the tick is `scanBit` of the shifted state. -/
theorem startSymbolOpensAFrame : Obligations.StartSymbolOpensAFrame := by
  intro s x hs hr hb ha
  obtain ⟨u, hu⟩ := execTick_scan hs hr hb ha
  obtain ⟨-, -, hramp, hinteg, hlast, hhist, hbuf, -, -, -, -, -, -, -, -, -, hresets, -⟩ :=
    scanBit_frame ((s.withTransmitter u).shiftBit x)
  refine ⟨_, hu, hhist, hinteg, hlast, ?_, State.rxByteAt_congr hbuf hresets, fun h => ?_, fun h => ?_⟩
  · rw [hramp]
    exact hs.toNat_rampRest x
  · rw [hhist] at h
    rw [scanBit, if_pos (State.startsFrame_iff.2 h)]
    exact ⟨rfl, rfl, rfl, rfl, rfl⟩
  · rw [hhist] at h
    rw [scanBit, if_neg (mt State.startsFrame_iff.1 h)]
    exact ⟨ha, rfl, rfl, rfl, rfl⟩

/-- Settles O39: the byte is noted and the frame abandoned. -/
theorem firstByteOutOfRangeAbandonsTheFrame : Obligations.FirstByteOutOfRangeAbandonsTheFrame := by
  intro s x d hs hr hb ha hc hzero hd hrange
  obtain ⟨u, hu⟩ := execTick_byte hs hr hb ha hc hd
  have hbad : State.lengthOk s.params d = false := by
    simp only [State.lengthOk, decide_eq_false_iff_not]
    omega
  exact ⟨_, hu.trans (receiveByte_of_outOfRange hzero hbad), rfl, hr.1, hzero, hs.active_notReady ha, rfl, rfl,
    State.rxByteAt_congr rfl rfl⟩

/-- Settles O40: the byte is stored where there is room for it, and the store decides whether the frame ends. -/
theorem acceptedByteIsStoredAndMayEndTheFrame : Obligations.AcceptedByteIsStoredAndMayEndTheFrame := by
  intro s x d hs hr hb ha hc hd hrange
  obtain ⟨u, hu⟩ := execTick_byte hs hr hb ha hc hd
  have hcap := hs.bufLen_lt_of_active ha
  have hlt : s.bufLen.toNat < 255 := hcap.trans_le (Params.facts hs.params_wf).rxBufCap_le
  have hok (hzero : s.bufLen = 0) : State.lengthOk s.params d = true := by simpa [State.lengthOk] using hrange hzero
  refine ⟨_, hu.trans (receiveByte_of_accepted hcap hok), rfl, ?_, fun a hne => ?_, toNat_add_one_of_lt hlt, hcap,
    fun hzero => if_pos hzero, fun hne => if_neg hne, storeByte_ends d ha (hs.active_notReady ha) hlt⟩
  · exact (State.byteAt_storeByte ..).trans (if_pos rfl)
  · exact (State.byteAt_storeByte ..).trans (if_neg hne)

end Sys2Proof.Machine
end

section
/-! The transmit half of a tick (41_tick_tx.md R150 to R155): the receive half leaves the transmit group alone and under
the invariants never stops, so what a tick does to the transmitter is one branch of the transmit half. -/

namespace Sys2Proof.Machine

/-! ### The branches of the transmit half -/

/-- An idle transmitter does nothing (R151). -/
theorem txHalf_of_idle {s : State} (ha : s.txActive = false) : txHalf s = .next s := by
  simp [txHalf, ha]

/-- Between bit ticks the transmit half only counts (R152). -/
theorem txHalf_between_bits {s : State} (ha : s.txActive = true) (hsample : s.txSample ≠ 0) :
    txHalf s = .next s.countTxSample := by
  have hbetween : s.isTxBitTick = false := by simpa [State.isTxBitTick] using hsample
  simp [txHalf, ha, hbetween]

/-- On a bit tick with no symbol left the transmission ends (R155). -/
theorem txHalf_of_allSent {s : State} (ha : s.txActive = true) (hsample : s.txSample = 0)
    (hsent : s.txLen.toNat ≤ s.txIndex.toNat) : txHalf s = .next s.finishTx := by
  simp [txHalf, State.isTxBitTick, State.allSent, ha, hsample, hsent]

/-- A selected bit is the one the indices name. -/
theorem State.eq_of_txSelectedBit {s : State} {b : Bool} (h : s.txSelectedBit = some b) :
    b = (s.byteAt .tx s.txIndex.toNat).getLsbD s.txBit.toNat := by
  unfold txSelectedBit at h
  split at h
  · exact (Option.some.inj h).symm
  · cases h

/-- On a bit tick with symbols left the selected bit is sent and the tick counted (R153, R154). -/
theorem State.Inv.txHalf_sends {s : State} (hs : s.Inv) (ha : s.txActive = true) (hsample : s.txSample = 0)
    (hleft : s.txIndex.toNat < s.txLen.toNat) :
    txHalf s = .next (s.sendBit ((s.byteAt .tx s.txIndex.toNat).getLsbD s.txBit.toNat)).countTxSample := by
  have hsent : s.allSent = false := by simpa [State.allSent] using hleft
  obtain ⟨b, hb⟩ := hs.txSelectedBit_of_not_allSent hsent
  rw [← State.eq_of_txSelectedBit hb]
  simp [txHalf, State.isTxBitTick, ha, hsample, hsent, hb]

/-! ### The transmit group behind the receive half -/

/-- The receive half leaves the transmit group alone. -/
theorem rxHalf_sameTransmitGroup {busy x : Bool} {dHi dLo : Nibble} {s t : State}
    (h : rxHalf busy x dHi dLo s = .next t) : s.SameTransmitGroup t := by
  obtain ⟨-, -, hactive, hsample, hbit, hindex, hlen, hout, hbuf, -, -, hresets⟩ := rxHalf_frame h
  exact ⟨hactive, hsample, hbit, hindex, hlen, hout, State.byteAt_congr .tx hbuf hresets⟩

/-- A tick that goes on leaves the transmit group as its transmit half put it. -/
theorem execTick_sameTransmitGroup {s t u : State} {x : Bool} (h : exec (.tick x) s = .next t)
    (hu : txHalf s = .next u) : u.SameTransmitGroup t := by
  obtain ⟨-, v, hv, ht⟩ := execTick_eq_next.1 h
  obtain rfl : u = v := Host.Outcome.next.inj (hu.symm.trans hv)
  exact rxHalf_sameTransmitGroup ht

/-- With room in the buffer the receive half goes on. -/
theorem rxHalf_completes {s : State} (busy x : Bool) (dHi dLo : Nibble)
    (hroom : s.rxActive = true → s.bufLen.toNat < s.params.rxBufCap) : Completes (rxHalf busy x dHi dLo s) := by
  unfold rxHalf
  split_ifs
  · exact ⟨_, rfl⟩
  · exact ⟨_, rfl⟩
  · exact receiveBit_completes dHi dLo hroom

/-- Under the invariants a tick goes on. -/
theorem State.Inv.execTick_completes {s : State} (hs : s.Inv) (x : Bool) : Completes (exec (.tick x) s) := by
  obtain ⟨u, hu⟩ := hs.execTick_eq_rxHalf x
  rw [hu]
  exact rxHalf_completes _ _ _ _ hs.bufLen_lt_of_active

/-- Under the invariants a tick goes on, and leaves the transmit group as its transmit half put it. -/
theorem State.Inv.execTick_of_txHalf {s u : State} (hs : s.Inv) (x : Bool) (hu : txHalf s = .next u) :
    ∃ t, exec (.tick x) s = .next t ∧ u.SameTransmitGroup t := by
  obtain ⟨t, ht⟩ := hs.execTick_completes x
  exact ⟨t, ht, execTick_sameTransmitGroup ht hu⟩

/-! ### The bit clock and the indices -/

/-- The count modulo `OVERSAMPLING` fits `tx_sample` (R152, R158). -/
theorem State.toNat_countTxSample {s : State} (hp : s.params.Facts) :
    s.countTxSample.txSample.toNat = (s.txSample.toNat + 1) % s.params.oversampling := by
  rw [countTxSample_txSample, BitVec.toNat_ofNat, Nat.mod_eq_of_lt]
  rw [hp.oversampling]
  omega

/-- A count from 0 gives 1 (R150). -/
theorem State.countTxSample_of_zero {s : State} (hp : s.params.Facts) (hsample : s.txSample = 0) :
    s.countTxSample.txSample = 1 := by
  rw [countTxSample_txSample, hsample, hp.oversampling]
  rfl

/-- Inside an entry `tx_bit` goes up by one and `tx_index` stays (R154). -/
theorem State.sendBit_within_entry {s : State} (hp : s.params.Facts) (b : Bool)
    (h : s.txBit.toNat + 1 < s.params.symbolBits) :
    (s.sendBit b).txBit.toNat = s.txBit.toNat + 1 ∧ (s.sendBit b).txIndex = s.txIndex := by
  have := hp.symbolBits_le
  have hends : s.endsEntry = false := by simpa [endsEntry] using h
  simp only [sendBit_txBit, sendBit_txIndex, hends]
  exact ⟨BitVec.toNat_add_of_lt (show s.txBit.toNat + 1 < 16 by omega), rfl⟩

/-- With an entry's last bit `tx_bit` goes back to 0 and `tx_index` goes up by one (R154). -/
theorem State.sendBit_at_end_of_entry {s : State} (b : Bool) (h : s.params.symbolBits ≤ s.txBit.toNat + 1)
    (hindex : s.txIndex.toNat < 255) :
    (s.sendBit b).txBit = 0 ∧ (s.sendBit b).txIndex.toNat = s.txIndex.toNat + 1 := by
  have hends : s.endsEntry = true := by simpa [endsEntry] using h
  simp only [sendBit_txBit, sendBit_txIndex, hends]
  exact ⟨rfl, toNat_add_one_of_lt hindex⟩

/-! ### The obligations about the transmit half -/

/-- Settles O29: the transmit half is the identity while idle, and the idle pin is 0 by the invariants. -/
theorem idleTransmitterIgnoresTicks : Obligations.IdleTransmitterIgnoresTicks := by
  refine ⟨fun s t x ha h => execTick_sameTransmitGroup h (txHalf_of_idle ha), fun s x hs ha => ?_⟩
  obtain ⟨t, ht, -, hsample, -, -, -, hout, -⟩ := hs.execTick_of_txHalf x (txHalf_of_idle ha)
  obtain ⟨hlow, -⟩ := hs.tx_idle ha
  exact ⟨t, ht, hout.trans hlow, hsample⟩

/-- Settles O30: between bit ticks the transmit half is the count alone; a bit that is sent is counted too. -/
theorem bitClockCountsTicks : Obligations.BitClockCountsTicks := by
  refine ⟨fun s x hs ha hsample => ?_, fun s x hs ha hsample hleft => ?_, fun s t ha h => ?_⟩
  · obtain ⟨t, ht, hactive, hcount, hbit, hindex, -, hout, -⟩ :=
      hs.execTick_of_txHalf x (txHalf_between_bits ha hsample)
    refine ⟨t, ht, ?_, hactive.trans ha, hout, hbit, hindex⟩
    rw [hcount]
    exact State.toNat_countTxSample (Params.facts hs.params_wf)
  · obtain ⟨t, ht, -, hcount, -⟩ := hs.execTick_of_txHalf x (hs.txHalf_sends ha hsample hleft)
    exact ⟨t, ht, hcount.trans (State.countTxSample_of_zero (Params.facts hs.params_wf) hsample)⟩
  · have hstart : complete s (s.startTx.respond .ok 0) = .next t := by simpa [exec, execTxStart, ha] using h
    obtain ⟨-, rfl⟩ := complete_eq_next.1 hstart
    rfl

/-- Settles O31: between bit ticks the count keeps the pin; on a bit tick the transmit half is `sendBit` of the selected
bit, whose indices do not wrap because the buffer has at most 255 entries of at most eight bits. -/
theorem bitTickSendsTheSelectedBit : Obligations.BitTickSendsTheSelectedBit := by
  refine ⟨fun s t x ha hsample h => ?_, fun s x hs ha hsample hleft => ?_⟩
  · obtain ⟨-, -, -, -, -, hout, -⟩ := execTick_sameTransmitGroup h (txHalf_between_bits ha hsample)
    exact hout
  · have hp := Params.facts hs.params_wf
    have hlt : s.txIndex.toNat < 255 := (hleft.trans_le hs.txLen_le_cap).trans_le hp.txBufCap_le
    obtain ⟨t, ht, hactive, -, hbit, hindex, hlen, hout, hbytes⟩ :=
      hs.execTick_of_txHalf x (hs.txHalf_sends ha hsample hleft)
    refine ⟨t, ht, hactive.trans ha, hout, hs.txBit_lt, fun hin => ?_, fun hend => ?_, hlen, hbytes⟩
    · rw [hbit, hindex, State.countTxSample_txBit, State.countTxSample_txIndex]
      exact State.sendBit_within_entry hp _ hin
    · rw [hbit, hindex, State.countTxSample_txBit, State.countTxSample_txIndex]
      exact State.sendBit_at_end_of_entry _ hend.ge hlt

/-- Settles O32: the transmit half is `finishTx`, and an index at the length has no bit pending. -/
theorem bitTickAfterTheLastBitCompletes : Obligations.BitTickAfterTheLastBitCompletes := by
  intro s x hs ha hsample hsent
  have hindexLen : s.txIndex = s.txLen := BitVec.eq_of_toNat_eq (hs.txIndex_le_txLen.antisymm hsent)
  have hbitZero := hs.txBit_exhausted hindexLen
  obtain ⟨t, ht, hactive, hcount, hbit, hindex, -, hout, -⟩ :=
    hs.execTick_of_txHalf x (txHalf_of_allSent ha hsample hsent)
  exact ⟨t, ht, hout, hactive, hcount, hbitZero, hbit.trans hbitZero, hindexLen, hindex.trans hindexLen⟩

end Sys2Proof.Machine
end

section
/-! The host commands for the receiver (42_host_rx_commands.md R170 to R173): what each of the four answers and writes under
a well-formed parameter set. -/

namespace Sys2Proof.Machine

/-! ### Words, answers, and a receiver that is off -/

/-- The word of a command decodes to the command. -/
theorem decodeCommand_encode {i : Instr} (hi : i.wf .command = true) : decodeCommand (encode i) = .ok i :=
  decodeCommand_eq_ok.2 ⟨hi, rfl⟩

/-- A field placed at bit 0 of a word is the field widened. -/
theorem place_zero {k : Nat} (v : BitVec k) : place v 0 = v.setWidth 16 := BitVec.shiftLeft_zero _

/-- The receive half of a receiver that is off does not run (R121). -/
theorem State.not_receiverRuns_of_disabled {s : State} (h : s.rxEnabled = false) : ¬s.ReceiverRuns :=
  fun ⟨henabled, _⟩ => Bool.false_ne_true (h.symm.trans henabled)

/-! ### What each command does -/

/-- `RX_ENABLE` puts the receive group in its enabled reset state and answers `OK` (R170). -/
theorem exec_rxEnable {s : State} (hs : s.params.wf = true) :
    exec .rxEnable s = .next (s.enableRx.respond .ok 0) := complete_of_wf hs _

/-- `RX_DISABLE` turns the receiver off and answers `OK` (R171). -/
theorem exec_rxDisable {s : State} (hs : s.params.wf = true) :
    exec .rxDisable s = .next (s.disableRx.respond .ok 0) := complete_of_wf hs _

/-- `RX_CLEAR` clears `rx_ready` and answers `OK` (R172). -/
theorem exec_rxClear {s : State} (hs : s.params.wf = true) :
    exec .rxClear s = .next (s.clearReady.respond .ok 0) := complete_of_wf hs _

/-- `RX_READ` of an index in range answers the byte there (R173). -/
theorem exec_rxRead_byte {s : State} (hs : s.params.wf = true) {i : Byte} (hi : i.toNat < s.params.rxBufCap) :
    exec (.rxRead i) s = .next (s.respond .ok ((s.byteAt .rx i.toNat).setWidth 16)) := by
  have hbyte : s.rxByte i = some ((s.byteAt .rx i.toNat).setWidth 16) := by
    rw [State.rxByte, if_pos hi, place_zero]
  simp only [exec, execRxRead, hbyte, complete_of_wf hs]

/-- An answer leaves the receive group alone, so a second read of the same byte gives the same answer (R173). -/
theorem exec_rxRead_again {s : State} (hs : s.params.wf = true) {i : Byte} (hi : i.toNat < s.params.rxBufCap) :
    exec (.rxRead i) (s.respond .ok ((s.byteAt .rx i.toNat).setWidth 16)) =
      .next (s.respond .ok ((s.byteAt .rx i.toNat).setWidth 16)) :=
  exec_rxRead_byte (s := s.respond .ok _) hs hi

/-! ### The obligations about the receiver commands -/

/-- Settles O20: the next state is `disableRx` with the answer, in which the receive half does not run. -/
theorem receiverDisableKeepsTheRest : Obligations.ReceiverDisableKeepsTheRest := by
  refine ⟨decodeCommand_encode (i := .rxDisable) rfl, fun s hs => ⟨exec_rxDisable hs, fun x t u ht hu => ?_⟩⟩
  rw [exec_rxDisable hs] at ht
  cases ht
  obtain ⟨-, hkept⟩ := receiveHalfRunsOnlyWhenEnabledAndUngated _ u x hu
  exact hkept (State.not_receiverRuns_of_disabled rfl)

/-- Settles O22: the index is in range or not; the answer in range does not depend on the answer before it. -/
theorem receiveReadAnswersTheByteInRange : Obligations.ReceiveReadAnswersTheByteInRange := by
  refine ⟨fun i => decodeCommand_encode (i := .rxRead i) rfl, fun s i hs => ⟨fun hi => exec_rxRead_range hs hi,
    fun hi => ⟨exec_rxRead_byte hs hi, fun t ht => ?_⟩⟩⟩
  rw [exec_rxRead_byte hs hi] at ht
  cases ht
  exact exec_rxRead_again hs hi

/-- Settles O19: the next state is `enableRx` with the answer. -/
theorem receiverEnableReinitialisesTheReceiveGroup : Obligations.ReceiverEnableReinitialisesTheReceiveGroup :=
  ⟨decodeCommand_encode (i := .rxEnable) rfl, fun _ hs => exec_rxEnable hs⟩

/-- Settles O21: the next state is `clearReady` with the answer. -/
theorem receiverClearClearsReadyOnly : Obligations.ReceiverClearClearsReadyOnly :=
  ⟨decodeCommand_encode (i := .rxClear) rfl, fun _ hs => exec_rxClear hs⟩

end Sys2Proof.Machine
end

section
/-! The host commands for the transmitter (43_host_tx_commands.md R180 to R182): what each of the three answers and
writes under a well-formed parameter set, one equation per branch. -/

namespace Sys2Proof.Machine

/-! ### What each command does -/

/-- `TX_CLEAR` of an idle transmitter empties the symbol buffer and answers `OK` (R180). -/
theorem exec_txClear_idle {s : State} (hs : s.params.wf = true) (hidle : s.txActive = false) :
    exec .txClear s = .next (s.emptyTx.respond .ok 0) := by
  simp [exec, execTxClear, hidle, hs]

/-- `TX_CLEAR` while sending is answered `BUSY` (R180). -/
theorem exec_txClear_busy {s : State} (hs : s.params.wf = true) (hbusy : s.txActive = true) :
    exec .txClear s = .next (s.refuse .busy) := by
  simp [exec, execTxClear, hbusy, hs]

/-- `TX_PUSH` while sending is answered `BUSY`, whether or not the buffer is full (R181, R238). -/
theorem exec_txPush_busy {s : State} (hs : s.params.wf = true) (e : Byte) (hbusy : s.txActive = true) :
    exec (.txPush e) s = .next (s.refuse .busy) := by
  simp [exec, execTxPush, hbusy, hs]

/-- `TX_PUSH` into a full buffer is answered `OVERSIZE` (R181). -/
theorem exec_txPush_full {s : State} (hs : s.params.wf = true) (e : Byte) (hidle : s.txActive = false)
    (hfull : s.params.txBufCap ≤ s.txLen.toNat) : exec (.txPush e) s = .next (s.refuse .oversize) := by
  simp [exec, execTxPush, hidle, hfull, hs]

/-- `TX_PUSH` into a buffer with room appends its entry and answers `OK` (R181). -/
theorem exec_txPush_room {s : State} (hs : s.params.wf = true) (e : Byte) (hidle : s.txActive = false)
    (hroom : s.txLen.toNat < s.params.txBufCap) : exec (.txPush e) s = .next ((s.appendTx e).respond .ok 0) := by
  simp [exec, execTxPush, hidle, Nat.not_le.2 hroom, hs]

/-- `TX_START` of an idle transmitter begins at the first bit of the first entry and answers `OK` (R182). -/
theorem exec_txStart_idle {s : State} (hs : s.params.wf = true) (hidle : s.txActive = false) :
    exec .txStart s = .next (s.startTx.respond .ok 0) := by
  simp [exec, execTxStart, hidle, hs]

/-- `TX_START` while sending is answered `BUSY` (R182). -/
theorem exec_txStart_busy {s : State} (hs : s.params.wf = true) (hbusy : s.txActive = true) :
    exec .txStart s = .next (s.refuse .busy) := by
  simp [exec, execTxStart, hbusy, hs]

/-! ### The appended entry -/

/-- Appending puts the entry at `tx_len` and keeps every other byte of TXBUF (R181). -/
theorem State.byteAt_appendTx (e : Byte) (s : State) (a : Nat) :
    (s.appendTx e).byteAt .tx a = if a = s.txLen.toNat then e else s.byteAt .tx a := by
  simp only [byteAt, memory, appendTx_txBuf, appendTx_resets, Memory.read_write]
  split <;> rfl

/-- An answer leaves every byte of both buffers alone (R236). -/
@[simp] theorem State.byteAt_respond (c : Code) (v : Word) (s : State) (b : Buffer) (a : Nat) :
    (s.respond c v).byteAt b a = s.byteAt b a := State.byteAt_congr b (by cases b <;> rfl) rfl a

/-- An entry appended while there is room adds one to `tx_len`: the buffer is too short for it to wrap (R181, R11). -/
theorem State.toNat_appendTx_txLen {s : State} (hs : s.params.wf = true) (e : Byte)
    (hroom : s.txLen.toNat < s.params.txBufCap) : (s.appendTx e).txLen.toNat = s.txLen.toNat + 1 :=
  toNat_add_one_of_lt (hroom.trans_le (Params.facts hs).txBufCap_le)

/-! ### The obligations about the transmitter commands -/

/-- Settles O24: the transmitter is sending, or the buffer is full, or the next state is `appendTx` with the answer. -/
theorem transmitPushAppendsOneEntry : Obligations.TransmitPushAppendsOneEntry := by
  refine ⟨fun e => decodeCommand_encode (i := .txPush e) rfl, fun s e hs =>
    ⟨exec_txPush_busy hs e, exec_txPush_full hs e, fun hidle hroom =>
      ⟨_, exec_txPush_room hs e hidle hroom, ?_, fun a ha => ?_, State.toNat_appendTx_txLen hs e hroom, rfl⟩⟩⟩
  · rw [State.byteAt_respond, State.byteAt_appendTx, if_pos rfl]
  · rw [State.byteAt_respond, State.byteAt_appendTx, if_neg ha]

/-- Settles O23: the next state is `emptyTx` with the answer, or the refusal. -/
theorem transmitClearEmptiesTheBuffer : Obligations.TransmitClearEmptiesTheBuffer :=
  ⟨decodeCommand_encode (i := .txClear) rfl, fun _ hs => ⟨exec_txClear_idle hs, exec_txClear_busy hs⟩⟩

/-- Settles O25: the next state is `startTx` with the answer, or the refusal; `tx_len` is not looked at. -/
theorem transmitStartBeginsAtTheFirstBit : Obligations.TransmitStartBeginsAtTheFirstBit :=
  ⟨decodeCommand_encode (i := .txStart) rfl, fun _ hs => ⟨exec_txStart_idle hs, exec_txStart_busy hs⟩⟩

end Sys2Proof.Machine
end

section
/-! The system commands `NOP` and `CSR_RD` (44_host_system_commands.md R190, R192): the words near `NOP` belong to no
command, and a CSR is a union of placed fields, each of which is read back where 10_state.md R47 and R48 lay it out. -/

namespace Sys2Proof

/-! ### The word of `NOP` -/

/-- A word below 0x1000 has `op` 0. -/
theorem opField_eq_zero_of_lt {w : Word} (h : w.toNat < 0x1000) : opField w = 0 := by
  apply BitVec.eq_of_toNat_eq
  rw [opField, BitVec.extractLsb'_toNat, Nat.shiftRight_eq_div_pow, Nat.div_eq_of_lt h]
  rfl

/-- `NOP` is the only operation with `op` 0. -/
theorem opField_encode_eq_nop {i : Instr} : opField (encode i) = 0 ↔ i = .nop := by
  cases i <;> simp [encode]

/-- Of the words below 0x1000 only `NOP`'s, which is 0, spells an operation. -/
theorem encode_ne_of_lt {w : Word} (hpos : 0 < w.toNat) (hlt : w.toNat < 0x1000) (i : Instr) : encode i ≠ w := by
  rintro rfl
  obtain rfl := opField_encode_eq_nop.1 (opField_eq_zero_of_lt hlt)
  exact absurd hpos (by decide)

end Sys2Proof

namespace Sys2Proof.Machine

/-! ### Placed fields -/

/-- A placed field shows its bits from `lo` up (10_state.md R48). -/
theorem getLsbD_place {k : Nat} (v : BitVec k) (lo i : Nat) :
    (place v lo).getLsbD i = (decide (i < 16) && !decide (i < lo) && v.getLsbD (i - lo)) := by
  by_cases hi : i < 16
  · simp [place, hi]
  · simp only [place, BitVec.getLsbD_shiftLeft, hi, decide_false, Bool.false_and]

/-- A placed field that fits the word is read back. -/
theorem extractLsb'_place_same {k : Nat} (v : BitVec k) {lo : Nat} (h : lo + k ≤ 16) :
    (place v lo).extractLsb' lo k = v := by
  ext i hi
  have hfit : lo + i < 16 := by omega
  rw [BitVec.getElem_extractLsb', getLsbD_place]
  simp [hfit, hi]

/-- Bits apart from a placed field are 0. -/
theorem extractLsb'_place_apart {k : Nat} (v : BitVec k) {lo a b : Nat} (h : a + b ≤ lo ∨ lo + k ≤ a) :
    (place v lo).extractLsb' a b = 0 := by
  ext i hi
  rw [BitVec.getElem_extractLsb', getLsbD_place]
  rcases h with hbelow | habove
  · simp [show a + i < lo by omega]
  · simp [BitVec.getLsbD_of_ge v _ (show k ≤ a + i - lo by omega)]

/-! ### The fields of the CSRs -/

/-- The six flags of STATUS from bit 0 up, and zeros above them (10_state.md R47). -/
theorem State.statusWord_fields (s : State) :
    s.statusWord.getLsbD 0 = s.rxEnabled ∧ s.statusWord.getLsbD 1 = s.rxActive ∧ s.statusWord.getLsbD 2 = s.rxReady ∧
      s.statusWord.getLsbD 3 = s.txActive ∧ s.statusWord.getLsbD 4 = s.txOut ∧
      s.statusWord.getLsbD 5 = s.lastSample ∧ s.statusWord.extractLsb' 6 10 = 0 := by
  simp only [statusWord, BitVec.getLsbD_or, getLsbD_place, BitVec.getLsbD_ofBool, BitVec.extractLsb'_or]
  simp [extractLsb'_place_apart]

/-- A byte alone in a CSR stands in bits 7:0, with zeros above it (10_state.md R48). -/
theorem byte_fields (v : Byte) : (place v 0).extractLsb' 0 8 = v ∧ (place v 0).extractLsb' 8 8 = 0 := by
  simp [extractLsb'_place_same, extractLsb'_place_apart]

/-- CSR 5 has `buf_len` below `exp_len` (10_state.md R48). -/
theorem lengths_fields (bufLen expLen : Byte) :
    (place bufLen 0 ||| place expLen 8).extractLsb' 0 8 = bufLen ∧
      (place bufLen 0 ||| place expLen 8).extractLsb' 8 8 = expLen := by
  simp [BitVec.extractLsb'_or, extractLsb'_place_same, extractLsb'_place_apart]

/-- CSR 6 has `tx_index`, `tx_bit` and `tx_sample` from bit 0 up (10_state.md R48). -/
theorem txPosition_fields (index : Byte) (bit sample : BitVec 4) :
    (place index 0 ||| place bit 8 ||| place sample 12).extractLsb' 0 8 = index ∧
      (place index 0 ||| place bit 8 ||| place sample 12).extractLsb' 8 4 = bit ∧
      (place index 0 ||| place bit 8 ||| place sample 12).extractLsb' 12 4 = sample := by
  simp [BitVec.extractLsb'_or, extractLsb'_place_same, extractLsb'_place_apart]

/-! ### What each command does -/

/-- `NOP` answers `OK` and changes nothing else (R190). -/
theorem exec_nop {s : State} (hs : s.params.wf = true) : exec .nop s = .next (s.respond .ok 0) := complete_of_wf hs _

/-- `CSR_RD` of a register that exists answers it and changes nothing else (R192). -/
theorem exec_csrRd_ok {s : State} (hs : s.params.wf = true) {n : Byte} {v : Word} (hv : s.csr n = some v) :
    exec (.csrRd n) s = .next (s.respond .ok v) := by
  simp only [exec, execCsrRd, hv, complete_of_wf hs]

/-! ### The obligations about the system commands -/

/-- Settles O18: a number from 8 up is refused; below 8 the answer is the CSR, whose fields are read off its layout. -/
theorem csrReadAnswersTheNumberedRegister : Obligations.CsrReadAnswersTheNumberedRegister := by
  refine ⟨fun n => decodeCommand_encode (i := .csrRd n) rfl, fun s n hs => ⟨exec_csrRd_range hs, fun hn => ?_⟩⟩
  obtain ⟨v, hv⟩ := Option.isSome_iff_exists.1 ((s.csr_isSome n).2 hn)
  refine ⟨v, exec_csrRd_ok hs hv, ?_, ?_, ?_, ?_, ?_, ?_, ?_, ?_⟩ <;> rintro rfl <;> cases hv
  · exact s.statusWord_fields
  · rfl
  · exact byte_fields s.integ
  · rfl
  · exact byte_fields s.bitCount
  · exact lengths_fields s.bufLen s.expLen
  · exact txPosition_fields s.txIndex s.txBit s.txSample
  · exact byte_fields s.txLen

/-- Settles O16: the next state is the answer alone, and the words from 0x0001 to 0x0FFF spell no operation. -/
theorem nopAnswersOkAndChangesNothing : Obligations.NopAnswersOkAndChangesNothing :=
  ⟨fun _ hs => exec_nop hs, decodeCommand_encode (i := .nop) rfl, fun _ hpos hlt =>
    decodeCommand_eq_error fun i _ => encode_ne_of_lt hpos hlt i⟩

end Sys2Proof.Machine
end

section
/-! Error responses (60_exceptions.md R236, R238): the checks give every word one code, and a code other than `OK` comes
with the state as it was; and no event reads the response that stands. -/

namespace Sys2Proof.Machine

/-! ### Ill-formed parameters -/

/-- Every operation is refused under a parameter set that is not well-formed (00_scope.md R11). -/
theorem exec_of_not_wf {s : State} (hs : s.params.wf = false) (i : Instr) :
    exec i s = .refused .illFormedParameters := by
  cases i with
  | csrRd n =>
    rw [exec, execCsrRd]
    split <;> exact complete_of_not_wf hs _
  | rxRead k =>
    rw [exec, execRxRead]
    split <;> exact complete_of_not_wf hs _
  | txClear =>
    rw [exec, execTxClear]
    split <;> exact complete_of_not_wf hs _
  | txPush e =>
    rw [exec, execTxPush]
    split_ifs <;> exact complete_of_not_wf hs _
  | txStart =>
    rw [exec, execTxStart]
    split <;> exact complete_of_not_wf hs _
  | _ => exact guarded_of_not_wf hs _

/-- A command word that goes on did so under a well-formed parameter set. -/
theorem params_wf_of_runCommand {w : Word} {s t : State} (h : runCommand w s = .next t) : s.params.wf = true := by
  obtain ⟨i, -, hi⟩ | ⟨-, -, hs, -⟩ := runCommand_cases h
  · by_contra hs
    rw [exec_of_not_wf (eq_false_of_ne_true hs)] at hi
    cases hi
  · exact hs

/-! ### The checks of a command -/

/-- The code that the checks of R238 give a decoded word, the first that fires deciding. -/
def responseCode (s : State) : Except Reject Instr → Code
  | .error _ => .illegal
  | .ok .txClear => if s.txActive = true then .busy else .ok
  | .ok .txStart => if s.txActive = true then .busy else .ok
  | .ok (.txPush _) =>
    if s.txActive = true then .busy else if s.params.txBufCap ≤ s.txLen.toNat then .oversize else .ok
  | .ok (.csrRd n) => if 8 ≤ n.toNat then .range else .ok
  | .ok (.rxRead i) => if s.params.rxBufCap ≤ i.toNat then .range else .ok
  | .ok _ => .ok

/-- The outcome `o` of a command issued in state `s` answers code `c`, and with a code other than `OK` that is all it
does. -/
def Answers (s : State) (c : Code) (o : Host.Outcome State Fault Refusal) : Prop :=
  ∃ u v, o = .next (u.respond c v) ∧ (c ≠ .ok → u = s ∧ v = 0)

theorem Answers.ok {s u : State} {v : Word} {o : Host.Outcome State Fault Refusal}
    (h : o = .next (u.respond .ok v)) : Answers s .ok o :=
  ⟨u, v, h, fun hc => absurd rfl hc⟩

theorem Answers.refuse {s : State} {c : Code} {o : Host.Outcome State Fault Refusal}
    (h : o = .next (s.refuse c)) : Answers s c o :=
  ⟨s, 0, h, fun _ => ⟨rfl, rfl⟩⟩

/-- `RESET` puts the block in its reset state and answers `OK` (R193). -/
theorem exec_reset {s : State} (hs : s.params.wf = true) :
    exec .reset s = .next (s.resetRegisters.respond .ok 0) := complete_of_wf hs _

/-- A command answers the code of its first failing check. -/
theorem exec_answers {s : State} (hs : s.params.wf = true) {i : Instr} (hi : i.wf .command = true) :
    Answers s (responseCode s (.ok i)) (exec i s) := by
  cases i with
  | nop => exact .ok (exec_nop hs)
  | reset => exact .ok (exec_reset hs)
  | csrRd n =>
    rw [responseCode]
    split_ifs with hn
    · exact .refuse (exec_csrRd_range hs hn)
    · obtain ⟨v, hv⟩ := Option.isSome_iff_exists.1 ((s.csr_isSome n).2 (not_le.1 hn))
      exact .ok (exec_csrRd_ok hs hv)
  | rxEnable => exact .ok (exec_rxEnable hs)
  | rxDisable => exact .ok (exec_rxDisable hs)
  | rxClear => exact .ok (exec_rxClear hs)
  | rxRead k =>
    rw [responseCode]
    split_ifs with hk
    · exact .refuse (exec_rxRead_range hs hk)
    · exact .ok (exec_rxRead_byte hs (not_le.1 hk))
  | txClear =>
    rw [responseCode]
    split_ifs with hbusy
    · exact .refuse (exec_txClear_busy hs hbusy)
    · exact .ok (exec_txClear_idle hs (eq_false_of_ne_true hbusy))
  | txPush e =>
    rw [responseCode]
    split_ifs with hbusy hfull
    · exact .refuse (exec_txPush_busy hs e hbusy)
    · exact .refuse (exec_txPush_full hs e (eq_false_of_ne_true hbusy) hfull)
    · exact .ok (exec_txPush_room hs e (eq_false_of_ne_true hbusy) (not_le.1 hfull))
  | txStart =>
    rw [responseCode]
    split_ifs with hbusy
    · exact .refuse (exec_txStart_busy hs hbusy)
    · exact .ok (exec_txStart_idle hs (eq_false_of_ne_true hbusy))
  | tick x => cases hi

/-- A word answers the code of its first failing check, decoding being the first (R238). -/
theorem runCommand_answers {s : State} (hs : s.params.wf = true) (w : Word) :
    Answers s (responseCode s (decodeCommand w)) (runCommand w s) := by
  cases hd : decodeCommand w with
  | error r => exact .refuse ((runCommand_error hd s).trans (complete_of_wf hs _))
  | ok i =>
    rw [runCommand_ok hd]
    exact exec_answers hs (decodeCommand_eq_ok.1 hd).1

/-! ### The branches of a tick's stages -/

section

variable {s : State} {busy x : Bool} {dHi dLo : Nibble}

/-- On a bit tick with symbols left the selected bit is sent and the tick counted (41_tick_tx.md R153, R154). -/
theorem txHalf_of_txSelectedBit {b : Bool} (ha : s.txActive = true) (hb : s.isTxBitTick = true)
    (hsent : s.allSent = false) (hsel : s.txSelectedBit = some b) : txHalf s = .next (s.sendBit b).countTxSample := by
  simp [txHalf, ha, hb, hsent, hsel]

/-- A running receive half below `RAMP_MAX` only advances the phase (40_tick_rx.md R124 to R126). -/
theorem rxHalf_below (hr : s.rxRuns busy = true) (hb : s.isBitTick x = false) :
    rxHalf busy x dHi dLo s = .next (s.advancePhase x) := by
  simp [rxHalf, hr, hb]

/-- A running receive half on a bit tick shifts and then takes the bit (40_tick_rx.md R127, R128). -/
theorem rxHalf_bit (hr : s.rxRuns busy = true) (hb : s.isBitTick x = true) :
    rxHalf busy x dHi dLo s = receiveBit dHi dLo (s.shiftBit x) := by
  simp [rxHalf, hr, hb]

/-- Outside a frame a bit is looked at for the start symbol (40_tick_rx.md R129, R130). -/
theorem receiveBit_scan (ha : s.rxActive = false) : receiveBit dHi dLo s = .next (scanBit s) := by
  simp [receiveBit, ha]

/-- Inside a frame a bit that completes no byte is counted (40_tick_rx.md R131). -/
theorem receiveBit_count (ha : s.rxActive = true) (hc : s.completesByte = false) :
    receiveBit dHi dLo s = .next s.countBit := by
  simp [receiveBit, ha, hc]

/-- Inside a frame a bit that completes a byte takes the decoded window (40_tick_rx.md R131, R132). -/
theorem receiveBit_byte (ha : s.rxActive = true) (hc : s.completesByte = true) :
    receiveBit dHi dLo s = receiveByte (decode8 s.params dHi dLo s.hist) s.takeByte := by
  simp [receiveBit, ha, hc]

end

/-! ### No event reads the standing response

Every condition and every update of a stage is the same, by computation, with another response standing; so each branch
of a stage is taken with any response or with none. -/

/-- The response port replaced, nothing else. -/
def State.withResp (q : Option Response) (s : State) : State := { s with resp := q }

section

variable {s t : State} (q : Option Response)

/-- What a command does, its own answer included, does not depend on the response before it. -/
theorem exec_withResp {i : Instr} (hi : i.wf .command = true) : exec i (s.withResp q) = exec i s := by
  cases i with
  | tick x => cases hi
  | _ => rfl

theorem runCommand_withResp (w : Word) : runCommand w (s.withResp q) = runCommand w s := by
  cases hd : decodeCommand w with
  | error r =>
    rw [runCommand_error hd, runCommand_error hd]
    rfl
  | ok i => rw [runCommand_ok hd, runCommand_ok hd, exec_withResp q (decodeCommand_eq_ok.1 hd).1]

theorem txHalf_withResp (h : txHalf s = .next t) : txHalf (s.withResp q) = .next (t.withResp q) := by
  obtain ⟨ha, rfl⟩ | ⟨ha, hb, rfl⟩ | ⟨ha, hb, hsent, rfl⟩ | ⟨ha, hb, hsent, b, hsel, rfl⟩ := txHalf_cases h
  · exact txHalf_of_idle ha
  · exact txHalf_between_bits ha (of_decide_eq_false hb)
  · exact txHalf_of_allSent ha (of_decide_eq_true hb) (of_decide_eq_true hsent)
  · exact txHalf_of_txSelectedBit ha hb hsent hsel

theorem scanBit_withResp : scanBit (s.withResp q) = (scanBit s).withResp q := by
  have hstarts : (s.withResp q).startsFrame = s.startsFrame := rfl
  rw [scanBit, scanBit, hstarts]
  split <;> rfl

theorem receiveByte_withResp {d : Byte} (h : receiveByte d s = .next t) :
    receiveByte d (s.withResp q) = .next (t.withResp q) := by
  obtain ⟨hzero, hd, rfl⟩ | ⟨hzero, hd, hroom, rfl⟩ | ⟨hzero, hroom, rfl⟩ := receiveByte_cases h
  · exact receiveByte_of_outOfRange hzero hd
  · exact (if_pos hzero).trans ((if_pos hd).trans (storeOrStop_eq_next.2 ⟨hroom, rfl⟩))
  · exact (if_neg hzero).trans (storeOrStop_eq_next.2 ⟨hroom, rfl⟩)

theorem receiveBit_withResp {dHi dLo : Nibble} (h : receiveBit dHi dLo s = .next t) :
    receiveBit dHi dLo (s.withResp q) = .next (t.withResp q) := by
  obtain ⟨ha, rfl⟩ | ⟨ha, hc, rfl⟩ | ⟨ha, hc, h⟩ := receiveBit_cases h
  · exact (receiveBit_scan (s := s.withResp q) ha).trans (congrArg _ (scanBit_withResp q))
  · exact receiveBit_count ha hc
  · exact (receiveBit_byte (s := s.withResp q) ha hc).trans (receiveByte_withResp (s := s.takeByte) q h)

theorem rxHalf_withResp {busy x : Bool} {dHi dLo : Nibble} (h : rxHalf busy x dHi dLo s = .next t) :
    rxHalf busy x dHi dLo (s.withResp q) = .next (t.withResp q) := by
  obtain ⟨hr, rfl⟩ | ⟨hr, hb, rfl⟩ | ⟨hr, hb, h⟩ := rxHalf_cases h
  · exact rxHalf_of_not_runs hr
  · exact rxHalf_below hr hb
  · exact (rxHalf_bit (s := s.withResp q) hr hb).trans (receiveBit_withResp (s := s.shiftBit x) q h)

/-- A tick does to everything but the response what it does whatever response stands, and leaves that standing. -/
theorem execTick_withResp {x : Bool} (h : exec (.tick x) s = .next t) :
    exec (.tick x) (s.withResp q) = .next (t.withResp q) := by
  obtain ⟨hs, u, hu, ht⟩ := execTick_eq_next.1 h
  exact execTick_eq_next.2 ⟨hs, u.withResp q, txHalf_withResp q hu, rxHalf_withResp q ht⟩

end

/-! ### The obligations about error responses -/

/-- Settles O26: an outcome that answers another code than `OK` is the refusal, and no event reads the response. -/
theorem errorResponseLeavesNoTrace : Obligations.ErrorResponseLeavesNoTrace := by
  refine ⟨fun w s t r h hr hcode => ?_, fun e s t q h => ?_⟩
  · obtain ⟨u, v, ht, hkept⟩ := runCommand_answers (params_wf_of_runCommand h) w
    cases h.symm.trans ht
    cases hr
    obtain ⟨rfl, rfl⟩ := hkept hcode
    rfl
  · cases e with
    | reset => exact ⟨t, h, rfl⟩
    | tick x => exact ⟨t.withResp q, execTick_withResp q h, rfl⟩
    | cmd w => exact ⟨t, (runCommand_withResp q w).trans h, rfl⟩

/-- Settles O27: the obligation's chain of checks is `responseCode` of the decoded word. -/
theorem firstFailingCheckGivesTheResponse : Obligations.FirstFailingCheckGivesTheResponse := by
  refine fun w s hs => ⟨fun i hi => runCommand_ok hi s, ?_⟩
  obtain ⟨u, v, ht, -⟩ := runCommand_answers hs w
  exact ⟨_, _, ht, rfl, rfl⟩

end Sys2Proof.Machine
end

section
/-! A tick while the receiver and the transmitter are off (70_reset_and_hazards.md R265): neither half of the tick runs, so
the whole next state is the state at entry. -/

namespace Sys2Proof.Machine

/-- Every state agrees with itself on the receive group. -/
theorem State.sameReceiveGroup_refl (s : State) : s.SameReceiveGroup s := by
  simp [SameReceiveGroup]

/-- Every state agrees with itself on the transmit group. -/
theorem State.sameTransmitGroup_refl (s : State) : s.SameTransmitGroup s := by
  simp [SameTransmitGroup]

/-- With the receiver and the transmitter off a tick goes on to the very same state: the transmit half of an idle
transmitter and the receive half of a disabled receiver each hand their state on (R121, R151). -/
theorem execTick_of_off {s : State} (hs : s.params.wf = true) (hr : s.rxEnabled = false) (ha : s.txActive = false)
    (x : Bool) : exec (.tick x) s = .next s := by
  have hoff : s.rxRuns s.txActive = false :=
    eq_false_of_ne_true (mt State.rxRuns_iff.1 (State.not_receiverRuns_of_disabled hr))
  exact execTick_eq_next.2 ⟨hs, s, txHalf_of_idle ha, rxHalf_of_not_runs hoff⟩

/-- The reset state stands under a well-formed parameter set, P0 (00_scope.md R11). -/
theorem State.reset_params_wf : State.reset.params.wf = true := by decide

/-- Settles O11: a tick with both halves off is the identity, and both are off in the reset state. -/
theorem tickKeepsTheIdleState : Obligations.TickKeepsTheIdleState :=
  ⟨fun s x hs hr ha => ⟨s, execTick_of_off hs hr ha x, s.sameReceiveGroup_refl, s.sameTransmitGroup_refl⟩,
    fun x => execTick_of_off State.reset_params_wf rfl rfl x⟩

end Sys2Proof.Machine
end

section
/-! Encoding (30_encoding.md R90 to R96): what decoding answers, read off the lemmas of the opcode map. -/

namespace Sys2Proof

/-- Settles O3: both directions of `decodeRunWord_eq_ok`, and its form for the command port. -/
theorem decodeAndEncodeAgree : Obligations.DecodeAndEncodeAgree :=
  ⟨decodeRunWord_encode, fun _ hi => decodeCommand_eq_ok.2 ⟨hi, rfl⟩, fun _ _ => encode_of_decodeRunWord⟩

/-- Settles O1: each word of the list is decoded by evaluation. -/
theorem wordsOfTheVectorsDecode : Obligations.WordsOfTheVectorsDecode := by
  unfold Obligations.WordsOfTheVectorsDecode
  decide

end Sys2Proof
end

section
/-! The codec on the wire (30_encoding.md R97 to R102) and the thirteen conditions of a parameter set (00_scope.md R11):
what a bit, an entry and two entries do to the history as numbers, and the model's checks in the spec's own words. -/

namespace Sys2Proof.Machine

/-! ### Bits shifted into the history -/

/-- A bit shifted into the window halves it and enters at `2W-1` (40_tick_rx.md R127). -/
theorem State.toNat_shiftIn {p : Params} (hp : p.Facts) {h : Word} (hh : h.toNat < 2 ^ (2 * p.symbolBits)) (b : Bool) :
    (State.shiftIn p h b).toNat = h.toNat / 2 + b.toNat * 2 ^ (2 * p.symbolBits - 1) := by
  have hone := hp.one_le_symbolBits
  have hle := hp.symbolBits_le
  have hlow : h.toNat / 2 < 2 ^ (2 * p.symbolBits - 1) := by
    rw [Nat.div_lt_iff_lt_mul two_pos, ← pow_succ]
    exact hh.trans_eq (by congr 1; omega)
  have hfits : 2 ^ (2 * p.symbolBits - 1) < 2 ^ 16 := Nat.pow_lt_pow_right (by decide) (by omega)
  have hbit : ((BitVec.ofBool b).setWidth 16 <<< (2 * p.symbolBits - 1)).toNat =
      b.toNat <<< (2 * p.symbolBits - 1) := by
    cases b
    · simp
    · simpa [Nat.shiftLeft_eq] using Nat.mod_eq_of_lt hfits
  rw [State.shiftIn, BitVec.toNat_or, BitVec.toNat_ushiftRight, hbit, Nat.or_comm, Nat.shiftRight_eq_div_pow, pow_one,
    ← Nat.shiftLeft_add_eq_or_of_lt hlow, Nat.shiftLeft_eq, Nat.add_comm]

/-- The bits of a list shifted into the history in order (40_tick_rx.md R127). -/
def shiftBits (p : Params) (h : Word) (bits : List Bool) : Word := bits.foldl (State.shiftIn p) h

@[simp] theorem shiftBits_nil (p : Params) (h : Word) : shiftBits p h [] = h := rfl

@[simp] theorem shiftBits_cons (p : Params) (h : Word) (b : Bool) (bits : List Bool) :
    shiftBits p h (b :: bits) = shiftBits p (State.shiftIn p h b) bits := rfl

theorem shiftBits_append (p : Params) (h : Word) (bits more : List Bool) :
    shiftBits p h (bits ++ more) = shiftBits p (shiftBits p h bits) more := List.foldl_append

/-- Shifting keeps the window's width. -/
theorem shiftBits_lt {p : Params} (hp : p.Facts) {h : Word} (hh : h.toNat < 2 ^ (2 * p.symbolBits)) (bits : List Bool) :
    (shiftBits p h bits).toNat < 2 ^ (2 * p.symbolBits) := by
  induction bits generalizing h with
  | nil => exact hh
  | cons b bits ih => exact ih (State.shiftIn_lt hp hh b)

/-- The first `k` bits of an entry stand, after they were shifted in, at the top of the window. -/
theorem toNat_shiftBits_range {p : Params} (hp : p.Facts) {h : Word} (hh : h.toNat < 2 ^ (2 * p.symbolBits)) (e : Byte)
    {k : Nat} (hk : k ≤ 2 * p.symbolBits) :
    (shiftBits p h ((List.range k).map e.getLsbD)).toNat =
      h.toNat / 2 ^ k + e.toNat % 2 ^ k * 2 ^ (2 * p.symbolBits - k) := by
  induction k with
  | zero => simp [Nat.mod_one]
  | succ k ih =>
    have hsplit : 2 ^ (2 * p.symbolBits - k) = 2 ^ (2 * p.symbolBits - (k + 1)) * 2 := by
      rw [← pow_succ]
      congr 1
      omega
    have hk' : 2 ^ (2 * p.symbolBits - 1) = 2 ^ k * 2 ^ (2 * p.symbolBits - (k + 1)) := by
      rw [← pow_add]
      congr 1
      omega
    have hmod : e.toNat % 2 ^ (k + 1) = e.toNat % 2 ^ k + 2 ^ k * (e.getLsbD k).toNat := by
      rw [Nat.mod_pow_succ, BitVec.getLsbD, Nat.toNat_testBit]
    rw [List.range_succ, List.map_append, shiftBits_append, List.map_singleton, shiftBits_cons, shiftBits_nil,
      State.toNat_shiftIn hp (shiftBits_lt hp hh _), ih (by omega), hsplit, ← Nat.mul_assoc,
      Nat.add_mul_div_right _ _ two_pos, Nat.div_div_eq_div_mul, ← pow_succ, hk', hmod]
    ring

/-- An entry of `W` bits moves the window down by `W` and stands above it (30_encoding.md R102). -/
theorem toNat_shiftBits_entry {p : Params} (hp : p.Facts) {h : Word} (hh : h.toNat < 2 ^ (2 * p.symbolBits)) {e : Byte}
    (he : e.toNat < 2 ^ p.symbolBits) :
    (shiftBits p h (entryBits p e)).toNat = h.toNat / 2 ^ p.symbolBits + e.toNat * 2 ^ p.symbolBits := by
  rw [entryBits, toNat_shiftBits_range hp hh e (by omega), Nat.mod_eq_of_lt he,
    show 2 * p.symbolBits - p.symbolBits = p.symbolBits by omega]

/-- Two entries fill the window, the second above the first (30_encoding.md R100, R102). -/
theorem toNat_shiftBits_pair {p : Params} (hp : p.Facts) {h : Word} (hh : h.toNat < 2 ^ (2 * p.symbolBits))
    {older newer : Byte} (holder : older.toNat < 2 ^ p.symbolBits) (hnewer : newer.toNat < 2 ^ p.symbolBits) :
    (shiftBits p h ([older, newer].flatMap (entryBits p))).toNat = newer.toNat * 2 ^ p.symbolBits + older.toNat := by
  have hrest : h.toNat / 2 ^ p.symbolBits < 2 ^ p.symbolBits := by
    rwa [Nat.div_lt_iff_lt_mul (Nat.two_pow_pos _), ← pow_add, ← two_mul]
  rw [List.flatMap_cons, List.flatMap_singleton, shiftBits_append,
    toNat_shiftBits_entry hp (shiftBits_lt hp hh _) hnewer, toNat_shiftBits_entry hp hh holder,
    Nat.add_mul_div_right _ _ (Nat.two_pow_pos _), Nat.div_eq_of_lt hrest, Nat.zero_add, Nat.add_comm]

/-- The two nibbles of a byte make it up. -/
theorem joinNibbles_extract (b : Byte) : joinNibbles (b.extractLsb' 4 4) (b.extractLsb' 0 4) = b := by
  apply BitVec.eq_of_toNat_eq
  have := b.isLt
  rw [joinNibbles_toNat, BitVec.extractLsb'_toNat, BitVec.extractLsb'_toNat]
  simp only [Nat.shiftRight_eq_div_pow]
  omega

/-- The bits of a byte's two symbols, shifted in one by one, decode to the byte (30_encoding.md R100, R102). -/
theorem decode8_shiftBits_symbolPair {p : Params} (hp : p.wf = true) {h : Word} (hh : h.toNat < 2 ^ (2 * p.symbolBits))
    (b : Byte) (dHi dLo : Nibble) : decode8 p dHi dLo (shiftBits p h ((symbolPair p b).flatMap (entryBits p))) = b := by
  rw [symbolPair, decode8_enc4 hp dHi dLo (toNat_shiftBits_pair (Params.facts hp) hh (enc4_lt hp _) (enc4_lt hp _)),
    joinNibbles_extract]

/-- What 00_scope.md R11 item 4 says of the preamble. -/
theorem preamble_facts {p : Params} (h : p.wf = true) :
    2 ≤ p.preamble.length ∧ (∀ e ∈ p.preamble, e.toNat < 2 ^ p.symbolBits) ∧
      p.preamble.drop (p.preamble.length - 2) =
        [BitVec.ofNat 8 (p.startSymbol.toNat % 2 ^ p.symbolBits),
          BitVec.ofNat 8 (p.startSymbol.toNat / 2 ^ p.symbolBits % 2 ^ p.symbolBits)] := by
  have hc : p.preambleOk = true := by simp_all [Params.wf]
  simpa [Params.preambleOk, Params.preambleMax, Params.allBelow] using hc

/-- The bits of the last two preamble entries leave the start symbol in the history (30_encoding.md R101). -/
theorem shiftBits_preamble {p : Params} (hp : p.wf = true) {h : Word} (hh : h.toNat < 2 ^ (2 * p.symbolBits)) :
    shiftBits p h ((p.preamble.drop (p.preamble.length - 2)).flatMap (entryBits p)) = p.startSymbol := by
  have hf := Params.facts hp
  obtain ⟨-, -, hlast⟩ := preamble_facts hp
  have hW : 2 ^ p.symbolBits ≤ 2 ^ 8 := Nat.pow_le_pow_right two_pos hf.symbolBits_le
  have hlow := Nat.mod_lt p.startSymbol.toNat (Nat.two_pow_pos p.symbolBits)
  have hhigh : p.startSymbol.toNat / 2 ^ p.symbolBits < 2 ^ p.symbolBits := by
    rw [Nat.div_lt_iff_lt_mul (Nat.two_pow_pos _), ← pow_add, ← two_mul]
    exact hf.startSymbol_lt
  have byte {n : Nat} (hn : n < 2 ^ p.symbolBits) : (BitVec.ofNat 8 n).toNat = n := by
    rw [BitVec.toNat_ofNat, Nat.mod_eq_of_lt (hn.trans_le hW)]
  apply BitVec.eq_of_toNat_eq
  rw [hlast, Nat.mod_eq_of_lt hhigh, toNat_shiftBits_pair hf hh ((byte hlow).trans_lt hlow)
    ((byte hhigh).trans_lt hhigh), byte hlow, byte hhigh]
  exact Nat.div_add_mod' _ _

/-- Settles O15: two entries fill the window, which then holds a byte's symbols or the start symbol. -/
theorem bitsOnTheWireComeBackAsTheByte : Obligations.BitsOnTheWireComeBackAsTheByte :=
  fun _ _ hp hh => ⟨decode8_shiftBits_symbolPair hp hh, shiftBits_preamble hp hh⟩

/-! ### Symbols and values that are none -/

/-- A value that does not stand in a table has no position in it. -/
theorem position_eq_none {s : Byte} {l : List Byte} (h : s ∉ l) : position s l = none := by
  induction l with
  | nil => rfl
  | cons e l ih =>
    rw [List.mem_cons, not_or] at h
    obtain ⟨he, hl⟩ := h
    rw [position, if_neg (Ne.symm he), ih hl, Option.map_none]

/-- In a table of sixteen entries every entry is the symbol of a nibble. -/
theorem exists_enc4_of_mem {p : Params} (h : p.enc.length = 16) {s : Byte} (hs : s ∈ p.enc) :
    ∃ n : Nibble, enc4 p n = s := by
  obtain ⟨i, hi, rfl⟩ := List.mem_iff_getElem.1 hs
  have hn : (BitVec.ofNat 4 i).toNat = i := by
    rw [BitVec.toNat_ofNat, Nat.mod_eq_of_lt (by omega)]
  exact ⟨BitVec.ofNat 4 i, by simp [enc4_eq_getElem h, hn]⟩

/-- Outside the alphabet `dec4` is the draw (30_encoding.md R99). -/
theorem dec4_of_no_symbol {p : Params} (h : p.enc.length = 16) (d : Nibble) {s : Byte} (hs : ∀ n, enc4 p n ≠ s) :
    dec4 p d s = d := by
  have hmem : s ∉ p.enc := fun hmem => by
    obtain ⟨n, hn⟩ := exists_enc4_of_mem h hmem
    exact hs n hn
  rw [dec4, nibbleOf, position_eq_none hmem]
  rfl

/-- Settles O13: a symbol is looked up where it stands, any other value nowhere. -/
theorem decodeOfASymbolIsItsNibbleElseTheDraw : Obligations.DecodeOfASymbolIsItsNibbleElseTheDraw :=
  fun _ hp d => ⟨dec4_enc4 hp d, fun _ hs => dec4_of_no_symbol (codec_facts hp).1 d hs⟩

/-! ### The thirteen conditions -/

/-- The check for repetitions is Mathlib's `Nodup`. -/
theorem distinct_iff_nodup {l : List Byte} : Params.distinct l = true ↔ l.Nodup := by
  induction l with
  | nil => simp [Params.distinct]
  | cons s l ih => simp [Params.distinct, ih]

/-- A table of sixteen entries whose symbols differ has no repetitions. -/
theorem nodup_of_enc4_injective {p : Params} (h : p.enc.length = 16) (hinj : ∀ m n : Nibble, enc4 p m = enc4 p n → m = n) :
    p.enc.Nodup := by
  have index {i : Nat} (hi : i < p.enc.length) : (BitVec.ofNat 4 i).toNat = i := by
    rw [BitVec.toNat_ofNat, Nat.mod_eq_of_lt (by omega)]
  refine List.nodup_iff_injective_getElem.2 fun ⟨i, hi⟩ ⟨j, hj⟩ hij => Fin.ext ?_
  have hsymbols : enc4 p (BitVec.ofNat 4 i) = enc4 p (BitVec.ofNat 4 j) := by
    simpa [enc4_eq_getElem h, index hi, index hj] using hij
  exact (index hi).symm.trans ((congrArg BitVec.toNat (hinj _ _ hsymbols)).trans (index hj))

/-- Item 5 of 00_scope.md R11: sixteen symbols of `W` bits that all differ. -/
theorem codecOk_iff {p : Params} : p.codecOk = true ↔
    p.enc.length = 16 ∧ (∀ n : Nibble, (enc4 p n).toNat < 2 ^ p.symbolBits) ∧
      ∀ m n : Nibble, enc4 p m = enc4 p n → m = n := by
  simp only [Params.codecOk, Params.allBelow, decide_eq_true_eq, List.all_eq_true, distinct_iff_nodup]
  refine and_congr_right fun hlen => and_congr ⟨fun h n => ?_, fun h s hs => ?_⟩ ⟨fun h m n hmn => ?_, fun h => ?_⟩
  · rw [enc4_eq_getElem hlen]
    exact h _ (List.getElem_mem _)
  · obtain ⟨n, rfl⟩ := exists_enc4_of_mem hlen hs
    exact h n
  · rw [enc4_eq_getElem hlen, enc4_eq_getElem hlen, h.getElem_inj_iff] at hmn
    exact BitVec.eq_of_toNat_eq hmn
  · exact nodup_of_enc4_injective hlen h

/-- The last two entries of a list that has two. -/
theorem drop_length_sub_two {l : List Byte} (h : 2 ≤ l.length) :
    l.drop (l.length - 2) = [l.getD (l.length - 2) 0, l.getD (l.length - 1) 0] := by
  rw [List.drop_eq_getElem_cons (by omega), List.drop_eq_getElem_cons (by omega), List.drop_of_length_le (by omega),
    List.getD_eq_getElem _ _ (by omega), List.getD_eq_getElem _ _ (by omega)]
  simp only [show l.length - 2 + 1 = l.length - 1 by omega]

/-- A byte is the byte of a number below 256 exactly if that is its value. -/
theorem eq_ofNat_iff {e : Byte} {n : Nat} (h : n < 256) : e = BitVec.ofNat 8 n ↔ e.toNat = n := by
  rw [← BitVec.toNat_inj, BitVec.toNat_ofNat, Nat.mod_eq_of_lt h]

/-- Item 4 of 00_scope.md R11: the last two entries of the preamble are the two halves of the start symbol. -/
theorem preambleOk_iff {p : Params} (hW : p.symbolBits ≤ 8) (hstart : p.startSymbol.toNat < 2 ^ (2 * p.symbolBits)) :
    p.preambleOk = true ↔ 2 ≤ p.preamble.length ∧ (∀ e ∈ p.preamble, e.toNat < 2 ^ p.symbolBits) ∧
      (p.preamble.getD (p.preamble.length - 2) 0).toNat = p.startSymbol.toNat % 2 ^ p.symbolBits ∧
      (p.preamble.getD (p.preamble.length - 1) 0).toNat = p.startSymbol.toNat / 2 ^ p.symbolBits := by
  have hle : 2 ^ p.symbolBits ≤ 2 ^ 8 := Nat.pow_le_pow_right two_pos hW
  have hlow := Nat.mod_lt p.startSymbol.toNat (Nat.two_pow_pos p.symbolBits)
  have hhigh : p.startSymbol.toNat / 2 ^ p.symbolBits < 2 ^ p.symbolBits := by
    rwa [Nat.div_lt_iff_lt_mul (Nat.two_pow_pos _), ← pow_add, ← two_mul]
  simp only [Params.preambleOk, Params.preambleMax, Params.allBelow, decide_eq_true_eq, List.all_eq_true]
  refine and_congr_right fun hlen => and_congr_right fun _ => ?_
  rw [drop_length_sub_two hlen, Nat.mod_eq_of_lt hhigh, List.cons.injEq, List.cons.injEq,
    eq_ofNat_iff (hlow.trans_le hle), eq_ofNat_iff (hhigh.trans_le hle), and_iff_left rfl]

/-- Every event is refused under a parameter set that is not well-formed (00_scope.md R11). -/
theorem runEvent_of_not_wf {s : State} (hs : s.params.wf = false) (e : Event) :
    runEvent e s = .refused .illFormedParameters := by
  cases e with
  | reset => exact complete_of_not_wf hs _
  | tick x => exact exec_of_not_wf hs (.tick x)
  | cmd w =>
    cases hd : decodeCommand w with
    | ok i => exact (runCommand_ok hd s).trans (exec_of_not_wf hs i)
    | error r => exact (runCommand_error hd s).trans (complete_of_not_wf hs _)

/-- A step under a parameter set that is not well-formed is refused, whatever is pending (00_scope.md R11). -/
theorem step_of_not_wf {s : State} (hs : s.params.wf = false) : step s = .refused .illFormedParameters := by
  cases hi : s.inputs with
  | nil => exact (step_nil hi).trans (complete_of_not_wf hs s)
  | cons p rest =>
    have hs' (l : List Pins) : (s.withInputs l).params.wf = false := hs
    rw [step_cons hi, runInstant]
    cases (firstEvent p).1 with
    | none => exact complete_of_not_wf hs _
    | some e => exact runEvent_of_not_wf (hs' _) e

/-- Settles O12: item by item, items 4 and 5 by `preambleOk_iff` and `codecOk_iff`; that `dec4` inverts the table follows
from the rest. -/
theorem wellFormedParametersAreTheThirteenConditions : Obligations.WellFormedParametersAreTheThirteenConditions := by
  refine ⟨fun p => ⟨fun h => ?_, fun h => ?_⟩, by decide, fun i s hs => exec_of_not_wf hs i, fun s hs => step_of_not_wf hs⟩
  · have hdec := dec4_enc4 h
    simp only [Params.wf, Bool.and_eq_true] at h
    obtain ⟨⟨⟨⟨⟨⟨⟨⟨⟨⟨⟨⟨h1, h2⟩, h3⟩, h4⟩, h5⟩, h6⟩, h7⟩, h8⟩, h9⟩, h10⟩, h11⟩, h12⟩, h13⟩ := h
    simp only [Params.oversamplingOk, Params.symbolBitsOk, Params.startSymbolOk, Params.rampOk, Params.incrementsOk,
      Params.rampFits, Params.integFits, Params.thresholdOk, Params.messageOk, Params.txBufOk,
      Params.linkLayerOk, decide_eq_true_eq] at h1 h2 h3 h6 h7 h8 h9 h10 h11 h12 h13
    obtain ⟨h6a, h6b, h6c, h6d⟩ := h6
    obtain ⟨h5a, h5b, h5c⟩ := codecOk_iff.1 h5
    exact ⟨h1, h2, h3, (preambleOk_iff h2.2 h3.1).1 h4, ⟨h5a, h5b, h5c, hdec⟩,
      ⟨h6a, Nat.mod_eq_zero_of_dvd h6b, h6c, h6d⟩, h7, h8, h9, h10, h11, h12, h13⟩
  · obtain ⟨h1, h2, h3, h4, ⟨h5a, h5b, h5c, -⟩, ⟨h6a, h6b, h6c, h6d⟩, h7, h8, h9, h10, h11, h12, h13⟩ := h
    simp only [Params.wf, Bool.and_eq_true, (preambleOk_iff h2.2 h3.1).2 h4, codecOk_iff.2 ⟨h5a, h5b, h5c⟩]
    simp only [Params.oversamplingOk, Params.symbolBitsOk, Params.startSymbolOk, Params.rampOk, Params.incrementsOk,
      Params.rampFits, Params.integFits, Params.thresholdOk, Params.messageOk, Params.txBufOk,
      Params.linkLayerOk, decide_eq_true_eq]
    exact ⟨⟨⟨⟨⟨⟨⟨⟨⟨⟨⟨⟨h1, h2⟩, h3⟩, trivial⟩, trivial⟩, ⟨h6a, Nat.dvd_of_mod_eq_zero h6b, h6c, h6d⟩⟩, h7⟩, h8⟩, h9⟩,
      h10⟩, h11⟩, h12⟩, h13⟩

end Sys2Proof.Machine
end

section
/-! Steps and resets (60_exceptions.md R237, 70_reset_and_hazards.md R260, R261): what a step does with the first instant of
the inputs, that no tick reads the inputs behind it, and what the registers are after a reset. -/

namespace Sys2Proof.Machine

/-! ### No tick reads the pending inputs -/

section

variable {s t : State} {x : Bool} (l : List Pins)

theorem txHalf_withInputs (h : txHalf s = .next t) : txHalf (s.withInputs l) = .next (t.withInputs l) := by
  obtain ⟨ha, rfl⟩ | ⟨ha, hb, rfl⟩ | ⟨ha, hb, hsent, rfl⟩ | ⟨ha, hb, hsent, b, hsel, rfl⟩ := txHalf_cases h
  · exact txHalf_of_idle ha
  · exact txHalf_between_bits ha (of_decide_eq_false hb)
  · exact txHalf_of_allSent ha (of_decide_eq_true hb) (of_decide_eq_true hsent)
  · exact txHalf_of_txSelectedBit ha hb hsent hsel

theorem scanBit_withInputs : scanBit (s.withInputs l) = (scanBit s).withInputs l := by
  have hstarts : (s.withInputs l).startsFrame = s.startsFrame := rfl
  rw [scanBit, scanBit, hstarts]
  split <;> rfl

theorem receiveByte_withInputs {d : Byte} (h : receiveByte d s = .next t) :
    receiveByte d (s.withInputs l) = .next (t.withInputs l) := by
  obtain ⟨hzero, hd, rfl⟩ | ⟨hzero, hd, hroom, rfl⟩ | ⟨hzero, hroom, rfl⟩ := receiveByte_cases h
  · exact receiveByte_of_outOfRange hzero hd
  · exact (if_pos hzero).trans ((if_pos hd).trans (storeOrStop_eq_next.2 ⟨hroom, rfl⟩))
  · exact (if_neg hzero).trans (storeOrStop_eq_next.2 ⟨hroom, rfl⟩)

theorem receiveBit_withInputs {dHi dLo : Nibble} (h : receiveBit dHi dLo s = .next t) :
    receiveBit dHi dLo (s.withInputs l) = .next (t.withInputs l) := by
  obtain ⟨ha, rfl⟩ | ⟨ha, hc, rfl⟩ | ⟨ha, hc, h⟩ := receiveBit_cases h
  · exact (receiveBit_scan (s := s.withInputs l) ha).trans (congrArg _ (scanBit_withInputs l))
  · exact receiveBit_count ha hc
  · exact (receiveBit_byte (s := s.withInputs l) ha hc).trans (receiveByte_withInputs (s := s.takeByte) l h)

/-- A tick does to everything but the pending inputs what it does whatever is pending, and leaves them. -/
theorem execTick_withInputs (h : exec (.tick x) s = .next t) :
    exec (.tick x) (s.withInputs l) = .next (t.withInputs l) := by
  obtain ⟨hs, u, hu, ht⟩ := execTick_eq_next.1 h
  refine execTick_eq_next.2 ⟨hs, u.withInputs l, txHalf_withInputs l hu, ?_⟩
  obtain ⟨hr, rfl⟩ | ⟨hr, hb, rfl⟩ | ⟨hr, hb, ht⟩ := rxHalf_cases ht
  · exact rxHalf_of_not_runs hr
  · exact rxHalf_below hr hb
  · exact (rxHalf_bit (s := u.withInputs l) hr hb).trans (receiveBit_withInputs (s := u.shiftBit x) l ht)

end

/-! ### The obligations about steps -/

/-- A presented tick is carried out. -/
theorem step_withInputs_tickPins (x : Bool) (rest : List Pins) (s : State) :
    step (s.withInputs (tickPins x :: rest)) = exec (.tick x) (s.withInputs rest) :=
  step_cons (s := s.withInputs (tickPins x :: rest)) rfl

/-- A presented command word is carried out. -/
theorem step_withInputs_cmdPins (w : Word) (rest : List Pins) (s : State) :
    step (s.withInputs (cmdPins w :: rest)) = runCommand w (s.withInputs rest) :=
  step_cons (s := s.withInputs (cmdPins w :: rest)) rfl

/-- Settles O5: the first event of each shape of instant is read off `firstEvent`. -/
theorem stepCarriesOutTheFirstEvent : Obligations.StepCarriesOutTheFirstEvent := by
  refine fun s hs => ⟨fun h => (step_nil h).trans (complete_of_wf hs s), fun rest =>
    ⟨fun tick cmd h => ?_, fun x h => step_cons h, fun x w h => step_cons h, fun w i h hi => ?_, fun w r h hr => ?_,
      fun h => (step_cons h).trans (complete_of_wf hs _)⟩⟩
  · exact (step_cons h).trans (complete_of_wf (s := s.withInputs rest) hs _)
  · exact (step_cons h).trans (runCommand_ok hi _)
  · exact (step_cons h).trans ((runCommand_error hr _).trans (complete_of_wf (s := s.withInputs rest) hs _))

/-- A word of the opcode table is 16 bits long and decodes as in a written run. -/
theorem decodeRunWord_of_decodeTableWord {w : Nat} {i : Instr} (h : decodeTableWord 16 w = some i) :
    w < 2 ^ 16 ∧ decodeRunWord (BitVec.ofNat 16 w) = .ok i := by
  unfold decodeTableWord at h
  split at h
  next hw =>
    cases hd : decodeRunWord (BitVec.ofNat 16 w) with
    | ok j =>
      rw [hd] at h
      cases h
      exact ⟨hw.2, rfl⟩
    | error r =>
      rw [hd] at h
      cases h
  · cases h

/-- The word of a command is presented on the command port (30_encoding.md R91). -/
theorem wordPins_encode {i : Instr} (hi : i.wf .command = true) : wordPins (encode i) = cmdPins (encode i) := by
  rw [wordPins, decodeRunWord_encode]
  cases i with
  | tick x => cases hi
  | _ => rfl

/-- Settles O6: `TICK`'s word is presented as the strobe, any other word on the command port, where it decodes alike. -/
theorem presentedWordRunsItsOperation : Obligations.PresentedWordRunsItsOperation := by
  intro s w i h
  obtain ⟨hw, hd⟩ := decodeRunWord_of_decodeTableWord h
  have hword : BitVec.ofNat 16 (w % 2 ^ 16) = encode i := by
    rw [Nat.mod_eq_of_lt hw, encode_of_decodeRunWord hd]
  rw [State.withFetchWord, hword]
  cases hi : i.wf .command with
  | true =>
    rw [wordPins_encode hi]
    exact (step_withInputs_cmdPins _ s.inputs s).trans (runCommand_encode hi s)
  | false =>
    cases i with
    | tick x =>
      rw [wordPins, decodeRunWord_encode]
      exact step_withInputs_tickPins x s.inputs s
    | _ => cases hi

/-- Settles O7: the tick of the instant goes first and hands on the command, whatever is pending behind it. -/
theorem coincidentTickGoesBeforeTheCommand : Obligations.CoincidentTickGoesBeforeTheCommand :=
  fun _ t _ w rest hi h => ⟨t.withInputs (cmdPins w :: rest), (step_cons hi).trans (execTick_withInputs _ h), rfl,
    step_withInputs_cmdPins w rest t⟩

/-! ### Resets -/

/-- The registers are 0 after a reset, whatever they were (70_reset_and_hazards.md R260, R261). -/
theorem State.resetRegisters_registersZero (s : State) : s.resetRegisters.RegistersZero := by
  simp [RegistersZero]

/-- Every byte of both buffers is the free byte of the new reset (10_state.md R40, log 6). -/
theorem State.byteAt_resetRegisters (s : State) (b : Buffer) (i : Nat) :
    s.resetRegisters.byteAt b i = Config.freeByte b (s.resets + 1) i := by
  cases b <;> rfl

/-- Settles O8: the reset pulse of an instant is its first event, and nothing of the instant is left. -/
theorem resetPinBeatsTickAndCommand : Obligations.ResetPinBeatsTickAndCommand :=
  fun s _ _ rest hs hi =>
    ⟨(s.withInputs rest).resetRegisters, (step_cons hi).trans (complete_of_wf (s := s.withInputs rest) hs _),
      State.resetRegisters_registersZero _, rfl, rfl, rfl, State.byteAt_resetRegisters _, exec_reset hs⟩

/-- With all registers 0 every CSR reads 0 (10_state.md R46 to R48). -/
theorem State.RegistersZero.csr {s : State} (hz : s.RegistersZero) {n : Byte} (hn : n.toNat < 8) :
    s.csr n = some 0 := by
  obtain ⟨h1, h2, h3, h4, h5, h6, h7, h8, h9, h10, h11, h12, h13, h14, h15, h16⟩ := hz
  unfold State.csr
  interval_cases n.toNat <;> simp [statusWord, place, *]

/-- The reset state has every register 0. -/
theorem State.reset_registersZero : State.reset.RegistersZero := by
  simp [RegistersZero, reset]

/-- Settles O17: the next state is `resetRegisters` with the answer. -/
theorem resetCommandClearsEveryRegister : Obligations.ResetCommandClearsEveryRegister :=
  ⟨decodeCommand_encode (i := .reset) rfl, fun s hs =>
    ⟨_, exec_reset hs, s.resetRegisters_registersZero, rfl,
      fun b i => (State.byteAt_respond ..).trans (s.byteAt_resetRegisters b i), rfl, rfl, rfl,
      s.resetRegisters_registersZero.csr (n := 0) (by decide)⟩⟩

/-- Settles O9: each register, CSR, pin and byte of the reset state is read off. -/
theorem resetStateHoldsTheSpecsValues : Obligations.ResetStateHoldsTheSpecsValues :=
  ⟨State.reset_registersZero, fun _ => State.reset_registersZero.csr, rfl, fun b i => by cases b <;> rfl, rfl, rfl⟩

/-- With every register 0 and nothing written the invariants hold, whatever the well-formed parameter set (10_state.md
R53). -/
theorem State.RegistersZero.inv {s : State} (hz : s.RegistersZero) (hs : s.params.wf = true) (hrx : s.rxBuf = [])
    (htx : s.txBuf = []) : s.Inv := by
  have hp := Params.facts hs
  have hramp := hp.rampMax_pos
  have hbits := hp.one_le_symbolBits
  have hover := hp.oversampling
  obtain ⟨h1, h2, h3, h4, h5, h6, h7, h8, h9, h10, h11, h12, h13, h14, h15, h16⟩ := hz
  constructor
  case toSpecInv => constructor <;> simp_all <;> omega
  all_goals simp_all

/-- Settles O10: the reset state has every register 0 and nothing written. -/
theorem resetStateMeetsTheInvariants : Obligations.ResetStateMeetsTheInvariants := by
  have hzero (p : Params) (hp : p.wf = true) : State.Inv { State.reset with params := p } :=
    State.RegistersZero.inv (s := { State.reset with params := p }) State.reset_registersZero hp rfl rfl
  exact ⟨hzero Params.p0 State.reset_params_wf, hzero⟩

/-! ### Responses -/

/-- The numbers of the response codes are 0 to 4, and 0 is `OK`'s (30_encoding.md R95). -/
theorem Code.number_le (c : Code) : c.number.toNat ≤ 4 := by
  cases c <;> decide

theorem Code.number_ne_zero {c : Code} : c.number ≠ 0 ↔ c ≠ .ok := by
  cases c <;> decide

/-- A tick leaves the standing response (log 5). -/
theorem execTick_resp {s t : State} {x : Bool} (h : exec (.tick x) s = .next t) : t.resp = s.resp := by
  obtain ⟨-, u, hu, ht⟩ := execTick_eq_next.1 h
  obtain ⟨-, -, -, -, -, -, -, -, -, hresp, -⟩ := rxHalf_frame ht
  obtain ⟨-, -, -, -, -, -, -, -, -, -, -, -, -, -, hresp', -⟩ := txHalf_frame hu
  exact hresp.trans hresp'

/-- Settles O28: every word is answered by the code of its first failing check; neither half of a tick answers. -/
theorem everyCommandAnswersAndTicksDoNot : Obligations.EveryCommandAnswersAndTicksDoNot := by
  refine ⟨fun w s hs => ?_, fun x s t h => execTick_resp h⟩
  obtain ⟨u, v, ht, hkept⟩ := runCommand_answers hs w
  exact ⟨_, _, ht, rfl, Code.number_le _, fun hc => (hkept (Code.number_ne_zero.1 hc)).2⟩

end Sys2Proof.Machine
end

section
/-! The invariants of 10_state.md R53 as log 12 strengthens them: each update of the model keeps them where the model makes
it, so every operation does, and with them no operation stops. -/

namespace Sys2Proof.Machine

/-! ### What a command can do -/

/-- A command that goes on did so under a well-formed parameter set. -/
theorem params_wf_of_exec {i : Instr} {s t : State} (h : exec i s = .next t) : s.params.wf = true := by
  by_contra hs
  rw [exec_of_not_wf (eq_false_of_ne_true hs)] at h
  cases h

/-- What it is for command `i` to lead from `s` to `t`: it only answers, or it is one of the seven that write a register
and is not turned away. -/
inductive CommandLeads (s : State) : Instr → State → Prop
  | answers (i : Instr) (c : Code) (v : Word) : CommandLeads s i (s.respond c v)
  | reset : CommandLeads s .reset (s.resetRegisters.respond .ok 0)
  | rxEnable : CommandLeads s .rxEnable (s.enableRx.respond .ok 0)
  | rxDisable : CommandLeads s .rxDisable (s.disableRx.respond .ok 0)
  | rxClear : CommandLeads s .rxClear (s.clearReady.respond .ok 0)
  | txClear (hidle : s.txActive = false) : CommandLeads s .txClear (s.emptyTx.respond .ok 0)
  | txPush (e : Byte) (hidle : s.txActive = false) (hroom : s.txLen.toNat < s.params.txBufCap) :
    CommandLeads s (.txPush e) ((s.appendTx e).respond .ok 0)
  | txStart (hidle : s.txActive = false) : CommandLeads s .txStart (s.startTx.respond .ok 0)

/-- Under a well-formed parameter set every command goes on, in one of these ways. -/
theorem exec_command {s : State} (hs : s.params.wf = true) {i : Instr} (hi : i.wf .command = true) :
    ∃ t, exec i s = .next t ∧ CommandLeads s i t := by
  cases i with
  | nop => exact ⟨_, exec_nop hs, .answers ..⟩
  | reset => exact ⟨_, exec_reset hs, .reset⟩
  | csrRd n =>
    rcases lt_or_ge n.toNat 8 with hn | hn
    · obtain ⟨v, hv⟩ := Option.isSome_iff_exists.1 ((s.csr_isSome n).2 hn)
      exact ⟨_, exec_csrRd_ok hs hv, .answers ..⟩
    · exact ⟨_, exec_csrRd_range hs hn, .answers ..⟩
  | rxEnable => exact ⟨_, exec_rxEnable hs, .rxEnable⟩
  | rxDisable => exact ⟨_, exec_rxDisable hs, .rxDisable⟩
  | rxClear => exact ⟨_, exec_rxClear hs, .rxClear⟩
  | rxRead k =>
    rcases lt_or_ge k.toNat s.params.rxBufCap with hk | hk
    · exact ⟨_, exec_rxRead_byte hs hk, .answers ..⟩
    · exact ⟨_, exec_rxRead_range hs hk, .answers ..⟩
  | txClear =>
    cases ha : s.txActive with
    | true => exact ⟨_, exec_txClear_busy hs ha, .answers ..⟩
    | false => exact ⟨_, exec_txClear_idle hs ha, .txClear ha⟩
  | txPush e =>
    cases ha : s.txActive with
    | true => exact ⟨_, exec_txPush_busy hs e ha, .answers ..⟩
    | false =>
      rcases lt_or_ge s.txLen.toNat s.params.txBufCap with hroom | hfull
      · exact ⟨_, exec_txPush_room hs e ha hroom, .txPush e ha hroom⟩
      · exact ⟨_, exec_txPush_full hs e ha hfull, .answers ..⟩
  | txStart =>
    cases ha : s.txActive with
    | true => exact ⟨_, exec_txStart_busy hs ha, .answers ..⟩
    | false => exact ⟨_, exec_txStart_idle hs ha, .txStart ha⟩
  | tick x => cases hi

/-- A command that goes on does so in one of these ways. -/
theorem commandLeads_of_exec {i : Instr} (hi : i.wf .command = true) {s t : State} (h : exec i s = .next t) :
    CommandLeads s i t := by
  obtain ⟨u, hu, hleads⟩ := exec_command (params_wf_of_exec h) hi
  cases h.symm.trans hu
  exact hleads

namespace State.Inv

variable {s : State}

theorem oversampling_pos (hs : s.Inv) : 0 < s.params.oversampling := by
  rw [(Params.facts hs.params_wf).oversampling]
  decide

/-! ### Updates that the commands make -/

theorem respond (hs : s.Inv) (c : Code) (v : Word) : (s.respond c v).Inv := { hs with }

theorem withInputs (hs : s.Inv) (l : List Pins) : (s.withInputs l).Inv := { hs with }

theorem resetRegisters (hs : s.Inv) : s.resetRegisters.Inv :=
  s.resetRegisters_registersZero.inv hs.params_wf rfl rfl

theorem clearReady (hs : s.Inv) : s.clearReady.Inv :=
  { hs with
    active_notReady := fun _ => rfl
    ready_whole := fun h => absurd h Bool.false_ne_true }

theorem enableRx (hs : s.Inv) : s.enableRx.Inv :=
  have hp := Params.facts hs.params_wf
  { hs with
    active_enabled := fun _ => rfl
    active_notReady := fun _ => rfl
    ramp_lt := hp.rampMax_pos
    integ_le := Nat.zero_le _
    hist_lt := Nat.two_pow_pos _
    bitCount_lt := Nat.mul_pos two_pos hp.one_le_symbolBits
    inactive_bitCount := fun _ => rfl
    bufLen_le_cap := Nat.zero_le _
    expLen_ok := fun h => absurd h (lt_irrefl 0)
    bufLen_le_expLen := fun _ => le_rfl
    length_stored := fun h => absurd h (lt_irrefl 0)
    ready_whole := fun h => absurd h Bool.false_ne_true
    active_partial := fun h => absurd h Bool.false_ne_true
    integ_ramp := (Nat.zero_mul _).le
    rx_written := fun _ h => absurd h (Nat.not_lt_zero _) }

theorem disableRx (hs : s.Inv) : s.disableRx.Inv :=
  { hs with
    active_enabled := fun h => absurd h Bool.false_ne_true
    active_notReady := fun h => absurd h Bool.false_ne_true
    bitCount_lt := Nat.mul_pos two_pos (Params.facts hs.params_wf).one_le_symbolBits
    inactive_bitCount := fun _ => rfl
    active_partial := fun h => absurd h Bool.false_ne_true }

theorem emptyTx (hs : s.Inv) (hidle : s.txActive = false) : s.emptyTx.Inv :=
  { hs with
    txLen_le_cap := Nat.zero_le _
    txIndex_le_txLen := le_rfl
    tx_written := fun _ h => absurd h (Nat.not_lt_zero _)
    txBit_exhausted := fun _ => (hs.tx_idle hidle).2.2 }

theorem appendTx (hs : s.Inv) (e : Byte) (hidle : s.txActive = false) (hroom : s.txLen.toNat < s.params.txBufCap) :
    (s.appendTx e).Inv :=
  have hlen := State.toNat_appendTx_txLen hs.params_wf e hroom
  { hs with
    txLen_le_cap := hlen.trans_le hroom
    txIndex_le_txLen := hs.txIndex_le_txLen.trans (hlen ▸ Nat.le_succ _)
    tx_written := fun i hi => (Memory.read_write_isSome ..).2 <| by
      rcases Nat.lt_succ_iff_lt_or_eq.1 (hlen ▸ hi) with hi | hi
      · exact .inr (hs.tx_written i hi)
      · exact .inl hi
    txBit_exhausted := fun _ => (hs.tx_idle hidle).2.2
    txBuf_wf := Memory.write_wf hs.txBuf_wf _ _
    txBuf_bounded := fun i hi => by
      rcases (Memory.read_write_isSome ..).1 hi with rfl | hi
      · exact hroom
      · exact hs.txBuf_bounded i hi }

theorem startTx (hs : s.Inv) : s.startTx.Inv :=
  have hp := Params.facts hs.params_wf
  { hs with
    txIndex_le_txLen := Nat.zero_le _
    txBit_lt := hp.one_le_symbolBits
    txSample_lt := hs.oversampling_pos
    tx_idle := fun h => absurd h.symm Bool.false_ne_true
    txBit_exhausted := fun _ => rfl }

/-! ### Updates that the transmit half makes -/

theorem countTxSample (hs : s.Inv) (ha : s.txActive = true) : s.countTxSample.Inv :=
  have hp := Params.facts hs.params_wf
  { hs with
    txSample_lt := (State.toNat_countTxSample hp).trans_lt (Nat.mod_lt _ hs.oversampling_pos)
    tx_idle := fun h => absurd ha (Bool.eq_false_iff.1 h) }

theorem finishTx (hs : s.Inv) (hsent : s.allSent = true) : s.finishTx.Inv :=
  have hindex : s.txIndex = s.txLen :=
    BitVec.eq_of_toNat_eq (hs.txIndex_le_txLen.antisymm (of_decide_eq_true hsent))
  { hs with
    txSample_lt := hs.oversampling_pos
    tx_idle := fun _ => ⟨rfl, rfl, hs.txBit_exhausted hindex⟩ }

theorem sendBit (hs : s.Inv) (b : Bool) (ha : s.txActive = true) (hleft : s.allSent = false) : (s.sendBit b).Inv := by
  have hp := Params.facts hs.params_wf
  have hlt : s.txIndex.toNat < s.txLen.toNat := not_le.1 (of_decide_eq_false hleft)
  have hfits : s.txIndex.toNat < 255 := hlt.trans_le (hs.txLen_le_cap.trans hp.txBufCap_le)
  rcases lt_or_ge (s.txBit.toNat + 1) s.params.symbolBits with hin | hend
  · obtain ⟨hbit, hindex⟩ := State.sendBit_within_entry hp b hin
    exact { hs with
      txIndex_le_txLen := hindex ▸ hs.txIndex_le_txLen
      txBit_lt := hbit.trans_lt hin
      tx_idle := fun h => absurd ha (Bool.eq_false_iff.1 h)
      txBit_exhausted := fun h => absurd (congrArg BitVec.toNat (hindex.symm.trans h)) hlt.ne }
  · obtain ⟨hbit, hindex⟩ := State.sendBit_at_end_of_entry b hend hfits
    exact { hs with
      txIndex_le_txLen := hindex.trans_le hlt
      txBit_lt := hbit ▸ hp.one_le_symbolBits
      tx_idle := fun h => absurd ha (Bool.eq_false_iff.1 h)
      txBit_exhausted := fun _ => hbit }

theorem txHalf {t : State} (hs : s.Inv) (h : Machine.txHalf s = .next t) : t.Inv := by
  obtain ⟨-, rfl⟩ | ⟨ha, -, rfl⟩ | ⟨-, -, hsent, rfl⟩ | ⟨ha, -, hleft, b, -, rfl⟩ := txHalf_cases h
  · exact hs
  · exact hs.countTxSample ha
  · exact hs.finishTx hsent
  · exact (hs.sendBit b ha hleft).countTxSample ha

/-! ### Updates that the receive half makes -/

/-- Below `RAMP_MAX` the counted samples stay behind the ramp (log 12). -/
theorem integSum_le (hs : s.Inv) (x : Bool) : s.integSum x * s.params.rampIncRetard ≤ s.rampSum x := by
  have hstep := (s.rampStep_bounds (Params.facts hs.params_wf) x).1
  have hcount : x.toNat * s.params.rampIncRetard ≤ s.params.rampIncRetard := by
    cases x <;> simp
  rw [State.integSum, Nat.add_mul]
  exact Nat.add_le_add hs.integ_ramp (hcount.trans hstep)

theorem advancePhase {x : Bool} (hs : s.Inv) (hb : s.isBitTick x = false) : (s.advancePhase x).Inv := by
  have hlt : s.rampSum x < s.params.rampMax := not_le.1 (of_decide_eq_false hb)
  have hcount : (s.advancePhase x).integ.toNat * s.params.rampIncRetard ≤ s.rampSum x :=
    (congrArg (· * _) (hs.toNat_integSum hlt)).trans_le (hs.integSum_le x)
  exact { hs with
    ramp_lt := (hs.toNat_rampSum hlt).trans_lt hlt
    integ_le := Params.le_ceilDiv (Params.facts hs.params_wf).one_le_retard (hcount.trans hlt.le)
    integ_ramp := hcount.trans_eq (hs.toNat_rampSum hlt).symm }

theorem shiftBit (hs : s.Inv) (x : Bool) : (s.shiftBit x).Inv :=
  have hp := Params.facts hs.params_wf
  { hs with
    ramp_lt := (hs.toNat_rampRest x).trans_lt ((hs.rampRest_lt x).trans_le hp.advance_le)
    integ_le := Nat.zero_le _
    hist_lt := State.shiftIn_lt hp hs.hist_lt _
    integ_ramp := (Nat.zero_mul _).trans_le (Nat.zero_le _) }

theorem openFrame (hs : s.Inv) (he : s.rxEnabled = true) : s.openFrame.Inv :=
  { hs with
    active_enabled := fun _ => he
    active_notReady := fun _ => rfl
    bitCount_lt := Nat.mul_pos two_pos (Params.facts hs.params_wf).one_le_symbolBits
    inactive_bitCount := fun _ => rfl
    bufLen_le_cap := Nat.zero_le _
    expLen_ok := fun h => absurd h (lt_irrefl 0)
    bufLen_le_expLen := fun _ => le_rfl
    length_stored := fun h => absurd h (lt_irrefl 0)
    ready_whole := fun h => absurd h Bool.false_ne_true
    active_partial := fun _ h => h
    rx_written := fun _ h => absurd h (Nat.not_lt_zero _) }

theorem scanBit (hs : s.Inv) (he : s.rxEnabled = true) : (Machine.scanBit s).Inv := by
  unfold Machine.scanBit
  split
  · exact hs.openFrame he
  · exact hs

/-- Below `2W` the count of a frame's bits does not wrap (40_tick_rx.md R138). -/
theorem toNat_countBit (hs : s.Inv) : s.countBit.bitCount.toNat = s.bitCount.toNat + 1 := by
  have := hs.bitCount_lt
  have := (Params.facts hs.params_wf).symbolBits_le
  exact toNat_add_one_of_lt (by omega)

theorem countBit (hs : s.Inv) (ha : s.rxActive = true) (hc : s.completesByte = false) : s.countBit.Inv :=
  { hs with
    bitCount_lt := hs.toNat_countBit.trans_lt (not_le.1 (of_decide_eq_false hc))
    inactive_bitCount := fun h => absurd ha (Bool.eq_false_iff.1 h) }

theorem takeByte (hs : s.Inv) : s.takeByte.Inv :=
  { hs with
    bitCount_lt := Nat.mul_pos two_pos (Params.facts hs.params_wf).one_le_symbolBits
    inactive_bitCount := fun _ => rfl }

theorem abandonFrame (hs : s.Inv) (hbits : s.bitCount = 0) : s.abandonFrame.Inv :=
  { hs with
    active_enabled := fun h => absurd h Bool.false_ne_true
    active_notReady := fun h => absurd h Bool.false_ne_true
    inactive_bitCount := fun _ => hbits
    active_partial := fun h => absurd h Bool.false_ne_true }

/-- Before the first byte of an open frame is stored no invariant speaks of the length. -/
theorem noteLength (hs : s.Inv) (d : Byte) (ha : s.rxActive = true) (hzero : s.bufLen = 0) : (s.noteLength d).Inv :=
  have hnone : ¬0 < s.bufLen.toNat := hzero ▸ lt_irrefl 0
  { hs with
    expLen_ok := fun h => absurd h hnone
    bufLen_le_expLen := fun h => absurd h hnone
    length_stored := fun h => absurd h hnone
    ready_whole := fun h => absurd h (Bool.eq_false_iff.1 (hs.active_notReady ha))
    active_partial := fun _ h => absurd h hnone }

/-- A store that has room below an accepted length, the length itself first (40_tick_rx.md R135, R136). -/
theorem storeByte (hs : s.Inv) (d : Byte) (ha : s.rxActive = true) (hbits : s.bitCount = 0)
    (hok : State.lengthOk s.params s.expLen = true) (hlt : s.bufLen.toNat < s.expLen.toNat)
    (hfirst : s.bufLen = 0 → d = s.expLen) : (s.storeByte d).Inv := by
  have hp := Params.facts hs.params_wf
  obtain ⟨-, hmax⟩ : _ ∧ s.expLen.toNat ≤ s.params.messageMax := of_decide_eq_true hok
  have hcap : s.bufLen.toNat < s.params.rxBufCap := hlt.trans_le (hmax.trans hp.messageMax_le)
  have hlen : (s.storeByte d).bufLen.toNat = s.bufLen.toNat + 1 := toNat_add_one_of_lt (hcap.trans_le hp.rxBufCap_le)
  have hready := hs.active_notReady ha
  exact { hs with
    active_enabled := fun _ => hs.active_enabled ha
    active_notReady := fun h => by simp_all
    inactive_bitCount := fun _ => hbits
    bufLen_le_cap := hlen.trans_le hcap
    expLen_ok := fun _ => hok
    bufLen_le_expLen := fun _ => hlen.trans_le hlt
    length_stored := fun _ => by
      rw [State.byteAt_storeByte, State.storeByte_expLen]
      split
      next h => exact hfirst (BitVec.eq_of_toNat_eq h.symm)
      next h => exact hs.length_stored (Nat.pos_of_ne_zero (Ne.symm h))
    ready_whole := fun h => by
      have hwhole : s.expLen.toNat ≤ s.bufLen.toNat + 1 := by simpa [hready, State.completesFrame] using h
      exact ⟨BitVec.eq_of_toNat_eq (hlen.trans (Nat.le_antisymm hlt hwhole)), hlen ▸ Nat.succ_pos _⟩
    active_partial := fun h _ => by
      have hpart : s.bufLen.toNat + 1 < s.expLen.toNat := by simpa [ha, State.completesFrame] using h
      exact hlen.trans_lt hpart
    rx_written := fun i hi => (Memory.read_write_isSome ..).2 <| by
      rcases Nat.lt_succ_iff_lt_or_eq.1 (hlen ▸ hi) with hi | hi
      · exact .inr (hs.rx_written i hi)
      · exact .inl hi
    rxBuf_wf := Memory.write_wf hs.rxBuf_wf _ _
    rxBuf_bounded := fun i hi => by
      rcases (Memory.read_write_isSome ..).1 hi with rfl | hi
      · exact hcap
      · exact hs.rxBuf_bounded i hi }

theorem receiveByte {d : Byte} {t : State} (hs : s.Inv) (ha : s.rxActive = true) (hbits : s.bitCount = 0)
    (h : Machine.receiveByte d s = .next t) : t.Inv := by
  obtain ⟨hzero, -, rfl⟩ | ⟨hzero, hok, -, rfl⟩ | ⟨hzero, -, rfl⟩ := receiveByte_cases h
  · exact (hs.noteLength d ha hzero).abandonFrame hbits
  · have hmin := (Params.facts hs.params_wf).one_le_messageMin
    obtain ⟨hd, -⟩ : s.params.messageMin ≤ d.toNat ∧ _ := of_decide_eq_true hok
    refine (hs.noteLength d ha hzero).storeByte d ha hbits hok ?_ fun _ => rfl
    exact (congrArg BitVec.toNat hzero).trans_lt (hmin.trans hd)
  · have hpos : 0 < s.bufLen.toNat := Nat.pos_of_ne_zero fun h => hzero (BitVec.eq_of_toNat_eq h)
    exact hs.storeByte d ha hbits (hs.expLen_ok hpos) (hs.active_partial ha hpos) fun h => absurd h hzero

theorem receiveBit {dHi dLo : Nibble} {t : State} (hs : s.Inv) (he : s.rxEnabled = true)
    (h : Machine.receiveBit dHi dLo s = .next t) : t.Inv := by
  obtain ⟨-, rfl⟩ | ⟨ha, hc, rfl⟩ | ⟨ha, -, h⟩ := receiveBit_cases h
  · exact hs.scanBit he
  · exact hs.countBit ha hc
  · exact hs.takeByte.receiveByte ha rfl h

theorem rxHalf {busy x : Bool} {dHi dLo : Nibble} {t : State} (hs : s.Inv)
    (h : Machine.rxHalf busy x dHi dLo s = .next t) : t.Inv := by
  obtain ⟨-, rfl⟩ | ⟨-, hb, rfl⟩ | ⟨hr, -, h⟩ := rxHalf_cases h
  · exact hs
  · exact hs.advancePhase hb
  · have he : s.rxEnabled = true := by
      rw [State.rxRuns, Bool.and_eq_true] at hr
      exact hr.1
    exact (hs.shiftBit x).receiveBit he h

/-! ### Operations, events, steps -/

/-- The command goes on to a state that meets the invariants. -/
theorem exec_command (hs : s.Inv) {i : Instr} (hi : i.wf .command = true) : ∃ t, exec i s = .next t ∧ t.Inv := by
  obtain ⟨t, ht, hleads⟩ := Machine.exec_command hs.params_wf hi
  refine ⟨t, ht, ?_⟩
  cases hleads with
  | answers _ c v => exact hs.respond c v
  | reset => exact hs.resetRegisters.respond .ok 0
  | rxEnable => exact hs.enableRx.respond .ok 0
  | rxDisable => exact hs.disableRx.respond .ok 0
  | rxClear => exact hs.clearReady.respond .ok 0
  | txClear hidle => exact (hs.emptyTx hidle).respond .ok 0
  | txPush e hidle hroom => exact (hs.appendTx e hidle hroom).respond .ok 0
  | txStart hidle => exact hs.startTx.respond .ok 0

/-- The tick goes on to a state that meets the invariants. -/
theorem exec_tick (hs : s.Inv) (x : Bool) : ∃ t, exec (.tick x) s = .next t ∧ t.Inv := by
  obtain ⟨t, ht⟩ := hs.execTick_completes x
  obtain ⟨-, u, hu, h⟩ := execTick_eq_next.1 ht
  exact ⟨t, ht, (hs.txHalf hu).rxHalf h⟩

/-- Every operation goes on to a state that meets the invariants. -/
theorem exec (hs : s.Inv) (i : Instr) : ∃ t, Machine.exec i s = .next t ∧ t.Inv := by
  cases hi : i.wf .command with
  | true => exact hs.exec_command hi
  | false =>
    cases i with
    | tick x => exact hs.exec_tick x
    | _ => cases hi

/-- What an operation leads to meets the invariants. -/
theorem of_exec {t : State} (hs : s.Inv) {i : Instr} (h : Machine.exec i s = .next t) : t.Inv := by
  obtain ⟨u, hu, ht⟩ := hs.exec i
  cases h.symm.trans hu
  exact ht

/-- Every event goes on to a state that meets the invariants. -/
theorem runEvent (hs : s.Inv) (e : Event) : ∃ t, Machine.runEvent e s = .next t ∧ t.Inv := by
  cases e with
  | reset => exact ⟨_, complete_of_wf hs.params_wf _, hs.resetRegisters⟩
  | tick x => exact hs.exec_tick x
  | cmd w =>
    cases hd : decodeCommand w with
    | ok i =>
      obtain ⟨t, ht, hinv⟩ := hs.exec i
      exact ⟨t, (runCommand_ok hd s).trans ht, hinv⟩
    | error r => exact ⟨_, (runCommand_error hd s).trans (complete_of_wf hs.params_wf _), hs.respond ..⟩

/-- Every step goes on to a state that meets the invariants. -/
theorem step (hs : s.Inv) : ∃ t, Machine.step s = .next t ∧ t.Inv := by
  cases hi : s.inputs with
  | nil => exact ⟨s, (step_nil hi).trans (complete_of_wf hs.params_wf s), hs⟩
  | cons p rest =>
    rw [step_cons hi, runInstant]
    cases (firstEvent p).1 with
    | none => exact ⟨_, complete_of_wf hs.params_wf _, hs.withInputs _⟩
    | some e => exact (hs.withInputs _).runEvent e

end State.Inv

/-! ### The obligations about the invariants -/

/-- Settles O46: operation by operation, `State.Inv.exec`. -/
theorem everyOperationCompletesAndKeepsTheInvariants : Obligations.EveryOperationCompletesAndKeepsTheInvariants :=
  fun i _ hs => hs.exec i

/-- Settles O45: the state a step goes on to is the one of `State.Inv.step`. -/
theorem everyStepKeepsTheInvariants : Obligations.EveryStepKeepsTheInvariants := by
  intro s t hs h
  obtain ⟨u, hu, ht⟩ := hs.step
  cases h.symm.trans hu
  exact ht

/-- Settles O47: a step from a state that meets the invariants goes on. -/
theorem noStepStops : Obligations.NoStepStops := by
  intro s hs
  obtain ⟨t, ht, -⟩ := hs.step
  exact ⟨t, ht⟩

end Sys2Proof.Machine
end

section
/-! What operations leave alone (10_state.md R20, R21; 20_memory.md R67, R72, R74, R75): the commands, the two halves of a
tick, and a frame that waits under `HOLD`. -/

namespace Sys2Proof.Machine

/-! ### Commands -/

/-- A command other than `RESET` keeps the parameters, the ports' and counters' history, and every byte of RXBUF. -/
theorem CommandLeads.frame {i : Instr} {s t : State} (h : CommandLeads s i t) (hi : i ≠ .reset) :
    t.params = s.params ∧ t.inputs = s.inputs ∧ t.resets = s.resets ∧ t.draws = s.draws ∧ t.rxBuf = s.rxBuf := by
  cases h with
  | reset => exact absurd rfl hi
  | _ => exact ⟨rfl, rfl, rfl, rfl, rfl⟩

/-- A command other than `RESET` and `TX_PUSH` keeps every byte of TXBUF. -/
theorem CommandLeads.txBuf {i : Instr} {s t : State} (h : CommandLeads s i t) (hi : i ≠ .reset)
    (hpush : ∀ e, i ≠ .txPush e) : t.txBuf = s.txBuf := by
  cases h with
  | reset => exact absurd rfl hi
  | txPush e => exact absurd rfl (hpush e)
  | _ => rfl

/-- A command that is not one of the receiver's writers leaves the receive group alone. -/
theorem CommandLeads.sameReceiveGroup {i : Instr} {s t : State} (h : CommandLeads s i t) (hi : i ≠ .reset)
    (henable : i ≠ .rxEnable) (hdisable : i ≠ .rxDisable) (hclear : i ≠ .rxClear) : s.SameReceiveGroup t := by
  cases h with
  | reset => exact absurd rfl hi
  | rxEnable => exact absurd rfl henable
  | rxDisable => exact absurd rfl hdisable
  | rxClear => exact absurd rfl hclear
  | _ => exact s.sameReceiveGroup_refl

/-- A command that is not one of the transmitter's writers leaves the transmit group alone. -/
theorem CommandLeads.sameTransmitGroup {i : Instr} {s t : State} (h : CommandLeads s i t) (hi : i ≠ .reset)
    (hclear : i ≠ .txClear) (hstart : i ≠ .txStart) (hpush : ∀ e, i ≠ .txPush e) : s.SameTransmitGroup t := by
  cases h with
  | reset => exact absurd rfl hi
  | txClear => exact absurd rfl hclear
  | txStart => exact absurd rfl hstart
  | txPush e => exact absurd rfl (hpush e)
  | _ => exact s.sameTransmitGroup_refl

/-- While a transmission goes on no command but `RESET` touches the transmit group (20_memory.md R67). -/
theorem CommandLeads.sameTransmitGroup_of_active {i : Instr} {s t : State} (h : CommandLeads s i t) (hi : i ≠ .reset)
    (ha : s.txActive = true) : s.SameTransmitGroup t := by
  cases h with
  | reset => exact absurd rfl hi
  | txClear hidle => exact absurd ha (Bool.eq_false_iff.1 hidle)
  | txPush e hidle => exact absurd ha (Bool.eq_false_iff.1 hidle)
  | txStart hidle => exact absurd ha (Bool.eq_false_iff.1 hidle)
  | _ => exact s.sameTransmitGroup_refl

/-- Settles O42: each of the ways a command goes on keeps what the command has no business with. -/
theorem commandFrame : Obligations.CommandFrame := by
  intro i s t h hi hreset
  have hleads := commandLeads_of_exec hi h
  obtain ⟨hparams, hinputs, hresets, hdraws, hrx⟩ := hleads.frame hreset
  exact ⟨hparams, hinputs, hresets, hdraws, State.rxByteAt_congr hrx hresets,
    fun hpush => State.byteAt_congr .tx (hleads.txBuf hreset hpush) hresets, hleads.sameReceiveGroup hreset,
    hleads.sameTransmitGroup hreset⟩

/-! ### A tick -/

/-- A receive half that completes no byte of a frame leaves RXBUF and the draws alone. -/
theorem rxHalf_keeps_bytes {busy x : Bool} {dHi dLo : Nibble} {s t : State} (h : rxHalf busy x dHi dLo s = .next t)
    (hno : ¬(s.rxRuns busy = true ∧ s.isBitTick x = true ∧ s.rxActive = true ∧ s.completesByte = true)) :
    t.rxBuf = s.rxBuf ∧ t.draws = s.draws := by
  obtain ⟨-, rfl⟩ | ⟨-, -, rfl⟩ | ⟨hr, hb, h⟩ := rxHalf_cases h
  · exact ⟨rfl, rfl⟩
  · exact ⟨rfl, rfl⟩
  · obtain ⟨-, rfl⟩ | ⟨-, -, rfl⟩ | ⟨ha, hc, -⟩ := receiveBit_cases h
    · obtain ⟨-, -, -, -, -, -, hbuf, -, -, -, -, -, -, -, -, -, -, hdraws⟩ := scanBit_frame (s.shiftBit x)
      exact ⟨hbuf, hdraws⟩
    · exact ⟨rfl, rfl⟩
    · exact absurd ⟨hr, hb, ha, hc⟩ hno

/-- A decoded byte is stored at `buf_len`, inside the buffer, or nowhere. -/
theorem receiveByte_byteAt {d : Byte} {s t : State} (h : receiveByte d s = .next t) (a : Nat) :
    t.byteAt .rx a = s.byteAt .rx a ∨ a = s.bufLen.toNat ∧ a < s.params.rxBufCap := by
  obtain ⟨-, -, rfl⟩ | ⟨-, -, hroom, rfl⟩ | ⟨-, hroom, rfl⟩ := receiveByte_cases h
  · exact .inl rfl
  all_goals
    rw [State.byteAt_storeByte]
    split
    next ha => exact .inr ⟨ha, ha ▸ hroom⟩
    next => exact .inl rfl

/-- The receive half changes no byte of RXBUF but the one at `buf_len`, inside the buffer (40_tick_rx.md R135, R139). -/
theorem rxHalf_byteAt {busy x : Bool} {dHi dLo : Nibble} {s t : State} (h : rxHalf busy x dHi dLo s = .next t)
    (a : Nat) : t.byteAt .rx a = s.byteAt .rx a ∨ a = s.bufLen.toNat ∧ a < s.params.rxBufCap := by
  by_cases hbyte : s.rxRuns busy = true ∧ s.isBitTick x = true ∧ s.rxActive = true ∧ s.completesByte = true
  · obtain ⟨hr, hb, ha, hc⟩ := hbyte
    rw [rxHalf_bit hr hb, receiveBit_byte (s := s.shiftBit x) ha hc] at h
    exact receiveByte_byteAt h a
  · obtain ⟨-, -, -, -, -, -, -, -, -, -, -, hresets⟩ := rxHalf_frame h
    exact .inl (State.rxByteAt_congr (rxHalf_keeps_bytes h hbyte).1 hresets a)

/-- Settles O41: what both halves keep, and the bytes of RXBUF that the receive half keeps. -/
theorem tickFrame : Obligations.TickFrame := by
  intro s t x h
  obtain ⟨-, u, hu, ht⟩ := execTick_eq_next.1 h
  rw [txHalf_eq_withTransmitter hu] at ht
  obtain ⟨hparams, henabled, -, -, -, -, hlen, -, hbuf, hresp, hinputs, hresets⟩ := rxHalf_frame ht
  refine ⟨hparams, henabled, hlen, State.byteAt_congr .tx hbuf hresets, hresp, hinputs, hresets, fun a hne => ?_,
    fun hno => ?_⟩
  · rcases rxHalf_byteAt ht a with hkept | ⟨heq, -⟩
    · exact hkept.trans (s.withTransmitter_byteAt u .rx a)
    · exact absurd heq hne
  · have hno' : ¬((s.withTransmitter u).rxRuns s.txActive = true ∧ (s.withTransmitter u).isBitTick x = true ∧
        (s.withTransmitter u).rxActive = true ∧ (s.withTransmitter u).completesByte = true) :=
      fun ⟨hr, hb, ha, hc⟩ => hno ⟨State.rxRuns_iff.1 hr, hb, ha, of_decide_eq_true hc⟩
    obtain ⟨hrx, hdraws⟩ := rxHalf_keeps_bytes ht hno'
    exact ⟨hdraws, State.rxByteAt_congr hrx hresets⟩

/-- Settles O34: a tick keeps the buffer and its length, and every command but `RESET` is turned away from the group or has
nothing to do with it. -/
theorem activeTransmissionKeepsItsBuffer : Obligations.ActiveTransmissionKeepsItsBuffer := by
  intro i s t ha hi h
  cases hw : i.wf .command with
  | true =>
    have hsame := (commandLeads_of_exec hw h).sameTransmitGroup_of_active hi ha
    obtain ⟨-, -, -, -, hlen, -, hbytes⟩ := id hsame
    exact ⟨hlen, hbytes, fun _ => hsame⟩
  | false =>
    cases i with
    | tick x =>
      obtain ⟨-, -, hlen, hbytes, -⟩ := tickFrame s t x h
      exact ⟨hlen, hbytes, fun h => absurd h Bool.false_ne_true⟩
    | _ => cases hw

/-- Settles O49: both halves go on under the invariants, and the receive half stores inside the buffer. -/
theorem receiveNeverOverrunsItsBuffer : Obligations.ReceiveNeverOverrunsItsBuffer := by
  intro s x dHi dLo hs
  obtain ⟨u, hu⟩ := hs.txHalf_completes
  obtain ⟨t, ht⟩ := rxHalf_completes (s := s.withTransmitter u) s.txActive x dHi dLo hs.bufLen_lt_of_active
  refine ⟨t, by rwa [hu, andThen_next, txHalf_eq_withTransmitter hu], fun a ha => ?_⟩
  rcases rxHalf_byteAt ht a with hkept | ⟨-, hlt⟩
  · exact hkept.trans (s.withTransmitter_byteAt u .rx a)
  · exact absurd hlt (not_lt.2 ha)

/-- Settles O38: the bit is counted, or the byte it completes leaves the count at 0. -/
theorem frameBitsAreCounted : Obligations.FrameBitsAreCounted := by
  intro s x hs hr hb ha
  obtain ⟨u, hu⟩ := execTick_bit hs hr hb
  rcases lt_or_ge (s.bitCount.toNat + 1) (2 * s.params.symbolBits) with hlt | hge
  · have hcount := receiveBit_count (s := (s.withTransmitter u).shiftBit x) (dHi := Config.freeNibble s.draws)
      (dLo := Config.freeNibble (s.draws + 1)) ha (decide_eq_false (not_le.2 hlt))
    exact ⟨_, hu.trans hcount, fun _ => ⟨hs.toNat_countBit, ha, rfl, rfl, rfl, fun _ => rfl⟩, fun h => absurd h hlt.ne⟩
  · have hbyte := receiveBit_byte (s := (s.withTransmitter u).shiftBit x) (dHi := Config.freeNibble s.draws)
      (dLo := Config.freeNibble (s.draws + 1)) ha (decide_eq_true hge)
    obtain ⟨t, ht⟩ := receiveBit_completes (s := (s.withTransmitter u).shiftBit x) (Config.freeNibble s.draws)
      (Config.freeNibble (s.draws + 1)) hs.bufLen_lt_of_active
    obtain ⟨-, -, -, -, -, -, hzero, -⟩ := receiveByte_frame (hbyte.symm.trans ht)
    exact ⟨t, hu.trans ht, fun h => absurd h (not_lt.2 hge), fun _ => hzero⟩

/-! ### The transmit half depends on the transmit group only -/

/-- The transmit halves of two states that agree on the transmit group lead to states that do. -/
theorem txHalf_sameTransmitGroup {s u t v : State} (hparams : u.params = s.params) (hsame : s.SameTransmitGroup u)
    (ht : txHalf s = .next t) (hv : txHalf u = .next v) : t.SameTransmitGroup v := by
  obtain ⟨hactive, hsample, hbit, hindex, hlen, hout, hbytes⟩ := hsame
  have hclock : u.isTxBitTick = s.isTxBitTick := by simp [State.isTxBitTick, hsample]
  have hsent : u.allSent = s.allSent := by simp [State.allSent, hlen, hindex]
  have hsel : u.txSelectedBit = s.txSelectedBit := by simp [State.txSelectedBit, hparams, hindex, hbit, hbytes]
  have hends : u.endsEntry = s.endsEntry := by simp [State.endsEntry, hparams, hbit]
  obtain ⟨ha, rfl⟩ | ⟨ha, hb, rfl⟩ | ⟨ha, hb, hc, rfl⟩ | ⟨ha, hb, hc, b, hd, rfl⟩ := txHalf_cases ht
  · cases (txHalf_of_idle (hactive.trans ha)).symm.trans hv
    exact ⟨hactive, hsample, hbit, hindex, hlen, hout, hbytes⟩
  · cases (txHalf_between_bits (hactive.trans ha) (of_decide_eq_false (hclock.trans hb))).symm.trans hv
    exact ⟨hactive, by simp [hsample, hparams], hbit, hindex, hlen, hout, hbytes⟩
  · cases (txHalf_of_allSent (hactive.trans ha) (of_decide_eq_true (hclock.trans hb))
      (of_decide_eq_true (hsent.trans hc))).symm.trans hv
    exact ⟨rfl, rfl, hbit, hindex, hlen, rfl, hbytes⟩
  · cases (txHalf_of_txSelectedBit (hactive.trans ha) (hclock.trans hb) (hsent.trans hc)
      (hsel.trans hd)).symm.trans hv
    exact ⟨hactive, by simp [hsample, hparams], by simp [hends, hbit], by simp [hends, hindex], hlen, rfl, hbytes⟩

/-! ### The receive half depends on the receive group only -/

namespace State

/-- Two states have the same parameters, receive group and number of the next draw: all that a running receive half
reads. -/
def SameReceiver (s u : State) : Prop := u.params = s.params ∧ u.draws = s.draws ∧ s.SameReceiveGroup u

variable {s u : State}

theorem SameReceiver.isBitTick (h : s.SameReceiver u) (x : Bool) : u.isBitTick x = s.isBitTick x := by
  obtain ⟨hparams, -, -, -, -, hramp, -, hlast, -⟩ := h
  simp [State.isBitTick, rampSum, rampStep, isTransition, hparams, hramp, hlast]

theorem SameReceiver.advancePhase (h : s.SameReceiver u) (x : Bool) :
    (s.advancePhase x).SameReceiver (u.advancePhase x) := by
  obtain ⟨hparams, hdraws, he, ha, hready, hramp, hinteg, hlast, hhist, hbits, hlen, hexp, hbytes⟩ := h
  refine ⟨hparams, hdraws, he, ha, hready, ?_, ?_, rfl, hhist, hbits, hlen, hexp, hbytes⟩
  · simp [rampSum, rampStep, isTransition, hparams, hramp, hlast]
  · simp [integSum, hinteg]

theorem SameReceiver.shiftBit (h : s.SameReceiver u) (x : Bool) : (s.shiftBit x).SameReceiver (u.shiftBit x) := by
  obtain ⟨hparams, hdraws, he, ha, hready, hramp, hinteg, hlast, hhist, hbits, hlen, hexp, hbytes⟩ := h
  refine ⟨hparams, hdraws, he, ha, hready, ?_, rfl, rfl, ?_, hbits, hlen, hexp, hbytes⟩
  · simp [rampSum, rampStep, isTransition, hparams, hramp, hlast]
  · have hbit : u.decidedBit x = s.decidedBit x := 
      decide_eq_decide.2 (by rw [integSum, integSum, hparams, hinteg])
    rw [shiftBit_hist, shiftBit_hist, hparams, hhist, hbit]

theorem SameReceiver.scanBit (h : s.SameReceiver u) : (Machine.scanBit s).SameReceiver (Machine.scanBit u) := by
  obtain ⟨hparams, hdraws, he, ha, hready, hramp, hinteg, hlast, hhist, hbits, hlen, hexp, hbytes⟩ := h
  have hstarts : u.startsFrame = s.startsFrame := by simp [startsFrame, hparams, hready, hhist]
  rw [Machine.scanBit, Machine.scanBit, hstarts]
  split
  · exact ⟨hparams, hdraws, he, rfl, rfl, hramp, hinteg, hlast, hhist, rfl, rfl, rfl, hbytes⟩
  · exact ⟨hparams, hdraws, he, ha, hready, hramp, hinteg, hlast, hhist, hbits, hlen, hexp, hbytes⟩

theorem SameReceiver.countBit (h : s.SameReceiver u) : s.countBit.SameReceiver u.countBit := by
  obtain ⟨hparams, hdraws, he, ha, hready, hramp, hinteg, hlast, hhist, hbits, hlen, hexp, hbytes⟩ := h
  exact ⟨hparams, hdraws, he, ha, hready, hramp, hinteg, hlast, hhist, by simp [hbits], hlen, hexp, hbytes⟩

theorem SameReceiver.takeByte (h : s.SameReceiver u) : s.takeByte.SameReceiver u.takeByte := by
  obtain ⟨hparams, hdraws, he, ha, hready, hramp, hinteg, hlast, hhist, -, hlen, hexp, hbytes⟩ := h
  exact ⟨hparams, by simp [hdraws], he, ha, hready, hramp, hinteg, hlast, hhist, rfl, hlen, hexp, hbytes⟩

theorem SameReceiver.noteLength (h : s.SameReceiver u) (d : Byte) : (s.noteLength d).SameReceiver (u.noteLength d) := by
  obtain ⟨hparams, hdraws, he, ha, hready, hramp, hinteg, hlast, hhist, hbits, hlen, -, hbytes⟩ := h
  exact ⟨hparams, hdraws, he, ha, hready, hramp, hinteg, hlast, hhist, hbits, hlen, rfl, hbytes⟩

theorem SameReceiver.abandonFrame (h : s.SameReceiver u) : s.abandonFrame.SameReceiver u.abandonFrame := by
  obtain ⟨hparams, hdraws, he, -, hready, hramp, hinteg, hlast, hhist, hbits, hlen, hexp, hbytes⟩ := h
  exact ⟨hparams, hdraws, he, rfl, hready, hramp, hinteg, hlast, hhist, hbits, hlen, hexp, hbytes⟩

theorem SameReceiver.storeByte (h : s.SameReceiver u) (d : Byte) : (s.storeByte d).SameReceiver (u.storeByte d) := by
  obtain ⟨hparams, hdraws, he, ha, hready, hramp, hinteg, hlast, hhist, hbits, hlen, hexp, hbytes⟩ := h
  have hends : u.completesFrame = s.completesFrame := by simp [completesFrame, hlen, hexp]
  refine ⟨hparams, hdraws, he, by simp [ha, hends], by simp [hready, hends], hramp, hinteg, hlast, hhist, hbits,
    by simp [hlen], hexp, fun i => ?_⟩
  simp [byteAt_storeByte, hlen, hbytes]

theorem SameReceiver.withTransmitter (h : s.SameReceiver u) (s' u' : State) :
    (s.withTransmitter s').SameReceiver (u.withTransmitter u') := by
  obtain ⟨hparams, hdraws, hgroup⟩ := h
  exact ⟨hparams, hdraws, by simpa [SameReceiveGroup] using hgroup⟩

end State

/-- A decoded byte does the same to the receiver of two states that agree on it. -/
theorem receiveByte_sameReceiver {d : Byte} {s u t v : State} (h : s.SameReceiver u) (ht : receiveByte d s = .next t)
    (hv : receiveByte d u = .next v) : t.SameReceiver v := by
  obtain ⟨hparams, -, -, -, -, -, -, -, -, -, hlen, -⟩ := id h
  obtain ⟨hzero, hd, rfl⟩ | ⟨hzero, hd, hroom, rfl⟩ | ⟨hzero, hroom, rfl⟩ := receiveByte_cases ht
  · cases (receiveByte_of_outOfRange (hlen.trans hzero) (hparams ▸ hd)).symm.trans hv
    exact (h.noteLength d).abandonFrame
  · cases ((if_pos (hlen.trans hzero)).trans ((if_pos (hparams ▸ hd)).trans
      (storeOrStop_eq_next.2 ⟨by simpa [hlen, hparams] using hroom, rfl⟩))).symm.trans hv
    exact (h.noteLength d).storeByte d
  · cases ((if_neg (hlen ▸ hzero)).trans
      (storeOrStop_eq_next.2 ⟨by simpa [hlen, hparams] using hroom, rfl⟩)).symm.trans hv
    exact h.storeByte d

/-- The receive halves of two states that agree on the receiver, running alike on the same sample and draws, lead to
states that do. -/
theorem rxHalf_sameReceiver {busy busy' x : Bool} {dHi dLo : Nibble} {s u t v : State} (h : s.SameReceiver u)
    (hruns : u.rxRuns busy' = s.rxRuns busy) (ht : rxHalf busy x dHi dLo s = .next t)
    (hv : rxHalf busy' x dHi dLo u = .next v) : t.SameReceiver v := by
  have hbit := h.isBitTick x
  obtain ⟨hr, rfl⟩ | ⟨hr, hb, rfl⟩ | ⟨hr, hb, ht⟩ := rxHalf_cases ht
  · cases (rxHalf_of_not_runs (hruns.trans hr)).symm.trans hv
    exact h
  · cases (rxHalf_below (hruns.trans hr) (hbit.trans hb)).symm.trans hv
    exact h.advancePhase x
  · rw [rxHalf_bit (hruns.trans hr) (hbit.trans hb)] at hv
    have h' := h.shiftBit x
    have hwindow : decode8 (u.shiftBit x).params dHi dLo (u.shiftBit x).hist =
        decode8 (s.shiftBit x).params dHi dLo (s.shiftBit x).hist := by
      obtain ⟨hparams, -, -, -, -, -, -, -, hhist, -⟩ := id h'
      rw [hparams, hhist]
    have hdone : (u.shiftBit x).completesByte = (s.shiftBit x).completesByte := by
      obtain ⟨hparams, -, -, -, -, -, -, -, -, hbits, -⟩ := id h'
      simp only [State.completesByte, hparams, hbits]
    obtain ⟨-, -, -, hactive, -⟩ := id h'
    obtain ⟨ha, rfl⟩ | ⟨ha, hc, rfl⟩ | ⟨ha, hc, ht⟩ := receiveBit_cases ht
    · cases (receiveBit_scan (hactive.trans ha)).symm.trans hv
      exact h'.scanBit
    · cases (receiveBit_count (hactive.trans ha) (hdone.trans hc)).symm.trans hv
      exact h'.countBit
    · rw [receiveBit_byte (hactive.trans ha) (hdone.trans hc), hwindow] at hv
      exact receiveByte_sameReceiver h'.takeByte ht hv

/-- Two ticks with the same sample, in states that agree on the receiver and run it alike, do the same to it. -/
theorem execTick_sameReceiver {x : Bool} {s u t v : State} (h : s.SameReceiver u)
    (hruns : u.rxRuns u.txActive = s.rxRuns s.txActive) (ht : exec (.tick x) s = .next t)
    (hv : exec (.tick x) u = .next v) : t.SameReceiver v := by
  have hdraws := h.2.1
  obtain ⟨-, s', hs', ht⟩ := execTick_eq_next.1 ht
  obtain ⟨-, u', hu', hv⟩ := execTick_eq_next.1 hv
  rw [txHalf_eq_withTransmitter hs'] at ht
  rw [txHalf_eq_withTransmitter hu', hdraws] at hv
  exact rxHalf_sameReceiver (h.withTransmitter s' u') hruns ht hv

/-- Settles O43: the transmit half reads the transmit group only, the receive half the receive group only. -/
theorem halvesOfATickShareNothing : Obligations.HalvesOfATickShareNothing := by
  intro s u t v x y hparams ht hv
  refine ⟨fun hsame => ?_, fun hsame hxy hgate hdraws => ?_⟩
  · obtain ⟨-, s', hs', -⟩ := execTick_eq_next.1 ht
    obtain ⟨-, u', hu', -⟩ := execTick_eq_next.1 hv
    obtain ⟨h1, h2, h3, h4, h5, h6, h7⟩ := execTick_sameTransmitGroup ht hs'
    obtain ⟨g1, g2, g3, g4, g5, g6, g7⟩ := execTick_sameTransmitGroup hv hu'
    obtain ⟨k1, k2, k3, k4, k5, k6, k7⟩ := txHalf_sameTransmitGroup hparams hsame hs' hu'
    simp [State.SameTransmitGroup, *]
  · subst hxy
    have hruns : u.rxRuns u.txActive = s.rxRuns s.txActive := by
      obtain ⟨henabled, -⟩ := hsame
      simp [State.rxRuns, hparams, hgate, henabled]
    exact (execTick_sameReceiver ⟨hparams, hdraws, hsame⟩ hruns ht hv).2.2

/-! ### A frame that waits under `HOLD` -/

/-- From `s` to `t` the parameters, `rx_ready` and the frame that waits have stayed (20_memory.md R74). -/
structure State.FrameKept (s t : State) : Prop where
  params : t.params = s.params
  ready : t.rxReady = s.rxReady
  bufLen : t.bufLen = s.bufLen
  expLen : t.expLen = s.expLen
  bytes : ∀ a, t.byteAt .rx a = s.byteAt .rx a

theorem State.FrameKept.refl (s : State) : s.FrameKept s := ⟨rfl, rfl, rfl, rfl, fun _ => rfl⟩

theorem State.FrameKept.trans {s t u : State} (h : s.FrameKept t) (h' : t.FrameKept u) : s.FrameKept u :=
  ⟨h'.params.trans h.params, h'.ready.trans h.ready, h'.bufLen.trans h.bufLen, h'.expLen.trans h.expLen,
    fun a => (h'.bytes a).trans (h.bytes a)⟩

/-- While a frame waits under `HOLD` a bit is shifted in and nothing is made of it (40_tick_rx.md R130). -/
theorem scanBit_of_held {s : State} (hhold : s.params.rxOverrun = .hold) (hready : s.rxReady = true) :
    scanBit s = s := by
  rw [scanBit, if_neg]
  simp [State.startsFrame, hready, hhold]

/-- A tick keeps a frame that waits under `HOLD`: outside a frame the receive half only looks for a start symbol, which it
may not take. -/
theorem State.Inv.frameKept_tick {s t : State} {x : Bool} (hs : s.Inv) (hhold : s.params.rxOverrun = .hold)
    (hready : s.rxReady = true) (h : Machine.exec (.tick x) s = .next t) : s.FrameKept t := by
  have ha : s.rxActive = false := Bool.eq_false_iff.2 fun ha => by simp [hs.active_notReady ha] at hready
  obtain ⟨-, u, hu, ht⟩ := execTick_eq_next.1 h
  rw [txHalf_eq_withTransmitter hu] at ht
  obtain ⟨-, rfl⟩ | ⟨-, -, rfl⟩ | ⟨-, -, ht⟩ := rxHalf_cases ht
  · exact ⟨rfl, rfl, rfl, rfl, s.withTransmitter_byteAt u .rx⟩
  · exact ⟨rfl, rfl, rfl, rfl, s.withTransmitter_byteAt u .rx⟩
  · rw [receiveBit_scan (s := (s.withTransmitter u).shiftBit x) ha,
      scanBit_of_held (s := (s.withTransmitter u).shiftBit x) hhold hready] at ht
    cases ht
    exact ⟨rfl, rfl, rfl, rfl, s.withTransmitter_byteAt u .rx⟩

/-- The commands that let a frame go are `RX_CLEAR`, `RX_ENABLE` and `RESET`. -/
theorem CommandLeads.frameKept {i : Instr} {s t : State} (h : CommandLeads s i t) (hclear : i ≠ .rxClear)
    (henable : i ≠ .rxEnable) (hreset : i ≠ .reset) : s.FrameKept t := by
  cases h with
  | reset => exact absurd rfl hreset
  | rxEnable => exact absurd rfl henable
  | rxClear => exact absurd rfl hclear
  | _ => exact ⟨rfl, rfl, rfl, rfl, fun _ => rfl⟩

/-- Every operation but those three keeps a frame that waits under `HOLD`. -/
theorem State.Inv.frameKept_exec {i : Instr} {s t : State} (hs : s.Inv) (hhold : s.params.rxOverrun = .hold)
    (hready : s.rxReady = true) (hi : i ≠ .rxClear ∧ i ≠ .rxEnable ∧ i ≠ .reset) (h : Machine.exec i s = .next t) :
    s.FrameKept t := by
  obtain ⟨hclear, henable, hreset⟩ := hi
  cases hw : i.wf .command with
  | true => exact (commandLeads_of_exec hw h).frameKept hclear henable hreset
  | false =>
    cases i with
    | tick x => exact hs.frameKept_tick hhold hready h
    | _ => cases hw

/-- Any operations but those three keep a frame that waits under `HOLD`. -/
theorem State.Inv.frameKept_runOps {ops : List Instr} {s t : State} (hs : s.Inv) (hhold : s.params.rxOverrun = .hold)
    (hready : s.rxReady = true) (hops : ∀ i ∈ ops, i ≠ .rxClear ∧ i ≠ .rxEnable ∧ i ≠ .reset)
    (h : runOps ops s = .next t) : s.FrameKept t := by
  induction ops generalizing s with
  | nil =>
    cases h
    exact .refl _
  | cons i ops ih =>
    obtain ⟨u, hu, h⟩ := andThen_eq_next.1 h
    have hkept := hs.frameKept_exec hhold hready (hops i (by simp)) hu
    exact hkept.trans (ih (hs.of_exec hu) (hkept.params ▸ hhold) (hkept.ready.trans hready)
      (fun j hj => hops j (by simp [hj])) h)

/-- Settles O44: the frame is kept along any operations that do not let it go. -/
theorem heldFrameIsTheHosts : Obligations.HeldFrameIsTheHosts := by
  intro ops s t hs hhold hready hops h
  have hkept := hs.frameKept_runOps hhold hready hops h
  exact ⟨hkept.ready.trans hready, hkept.bufLen, hkept.expLen, hkept.bytes⟩

end Sys2Proof.Machine
end

section
/-! Runs (00_scope.md R17; 10_state.md R53): under the invariants every run goes on and keeps them, commands with ticks
among them are one run of operations, and along a run of events each entry of the symbol buffer goes back to its push. -/

namespace Sys2Proof.Machine

/-! ### Runs of ticks and of spaced commands are runs of operations -/

theorem runTicks_eq_runOps (xs : List Bool) (s : State) : runTicks xs s = runOps (xs.map .tick) s := by
  induction xs generalizing s with
  | nil => rfl
  | cons x xs ih => exact congrArg (andThen _) (funext ih)

/-- The operations of commands with ticks placed among them, in order. -/
def spacedOps : List Instr → List (List Bool) → List Instr
  | [], _ => []
  | i :: is, gaps => (gaps.headD []).map .tick ++ i :: spacedOps is gaps.tail

theorem issue_eq_runOps (xs : List Bool) (i : Instr) (s : State) : issue xs i s = runOps (xs.map .tick ++ [i]) s := by
  rw [issue, runTicks_eq_runOps, runOps_append]
  congr 1
  funext t
  rw [runOps_cons]
  cases exec i t <;> rfl

theorem runSpaced_eq_runOps (is : List Instr) (gaps : List (List Bool)) (s : State) :
    runSpaced is gaps s = runOps (spacedOps is gaps) s := by
  induction is generalizing gaps s with
  | nil => rfl
  | cons i is ih =>
    rw [runSpaced_cons, issue, runTicks_eq_runOps, spacedOps, runOps_append, andThen_assoc]
    exact congrArg (andThen _) (funext fun t => congrArg (andThen _) (funext (ih gaps.tail)))

/-! ### The invariants along runs -/

section

variable {s : State}

theorem State.Inv.runOps (hs : s.Inv) (ops : List Instr) : ∃ t, Machine.runOps ops s = .next t ∧ t.Inv := by
  induction ops generalizing s with
  | nil => exact ⟨s, rfl, hs⟩
  | cons i ops ih =>
    obtain ⟨t, ht, hinv⟩ := hs.exec i
    rw [runOps_cons, ht]
    exact ih hinv

theorem State.Inv.runTicks (hs : s.Inv) (xs : List Bool) : ∃ t, Machine.runTicks xs s = .next t ∧ t.Inv := by
  rw [runTicks_eq_runOps]
  exact hs.runOps _

theorem State.Inv.issue (hs : s.Inv) (xs : List Bool) (i : Instr) :
    ∃ t, Machine.issue xs i s = .next t ∧ t.Inv := by
  rw [issue_eq_runOps]
  exact hs.runOps _

theorem State.Inv.runSpaced (hs : s.Inv) (is : List Instr) (gaps : List (List Bool)) :
    ∃ t, Machine.runSpaced is gaps s = .next t ∧ t.Inv := by
  rw [runSpaced_eq_runOps]
  exact hs.runOps _

/-- What a run of ticks leads to meets the invariants. -/
theorem State.Inv.of_runTicks {t : State} (hs : s.Inv) {xs : List Bool} (h : Machine.runTicks xs s = .next t) :
    t.Inv := by
  obtain ⟨u, hu, ht⟩ := hs.runTicks xs
  cases h.symm.trans hu
  exact ht

theorem State.Inv.runSteps (hs : s.Inv) (k : Nat) : ∃ t, Machine.runSteps k s = .next t ∧ t.Inv := by
  induction k generalizing s with
  | zero => exact ⟨s, rfl, hs⟩
  | succ k ih =>
    obtain ⟨t, ht, hinv⟩ := hs.step
    rw [Machine.runSteps, ht]
    exact ih hinv

/-- An emptying event leaves no entry (10_state.md R53 item 8). -/
theorem Empties.txLen {e : Event} {t : State} (he : Empties e s) (h : runEvent e s = .next t) : t.txLen = 0 := by
  rcases he with rfl | ⟨w, rfl, hreset | ⟨hclear, hidle⟩⟩
  · obtain ⟨-, rfl⟩ := complete_eq_next.1 h
    rfl
  · have h : exec .reset s = .next t := (runCommand_ok hreset s).symm.trans h
    cases (exec_reset (params_wf_of_exec h)).symm.trans h
    rfl
  · have h : exec .txClear s = .next t := (runCommand_ok hclear s).symm.trans h
    cases (exec_txClear_idle (params_wf_of_exec h) hidle).symm.trans h
    rfl

/-- The event is a `TX_PUSH` of `v` that appends its entry in state `s`. -/
def Pushes (e : Event) (s : State) (v : Byte) : Prop :=
  ∃ w, e = .cmd w ∧ decodeCommand w = .ok (.txPush v) ∧ runCommand w s = .next ((s.appendTx v).respond .ok 0)

/-- An event that does not empty the symbol buffer appends an entry or leaves the buffer alone. -/
theorem pushes_or_keeps {e : Event} {t : State} (he : ¬Empties e s) (h : runEvent e s = .next t) :
    (∃ v, Pushes e s v ∧ s.txLen.toNat < s.params.txBufCap ∧ t = (s.appendTx v).respond .ok 0) ∨
    (t.txLen = s.txLen ∧ ∀ i, t.byteAt .tx i = s.byteAt .tx i) := by
  obtain ⟨rfl, -⟩ | ⟨x, rfl, hx⟩ | ⟨w, rfl, hw⟩ := runEvent_cases h
  · exact absurd (.inl rfl) he
  · obtain ⟨-, -, hlen, hbytes, -⟩ := tickFrame s t x hx
    exact .inr ⟨hlen, hbytes⟩
  · obtain ⟨i, hi, hexec⟩ | ⟨r, -, -, rfl⟩ := runCommand_cases hw
    · cases commandLeads_of_exec (decodeCommand_eq_ok.1 hi).1 hexec with
      | reset => exact absurd (.inr ⟨w, rfl, .inl hi⟩) he
      | txClear hidle => exact absurd (.inr ⟨w, rfl, .inr ⟨hi, hidle⟩⟩) he
      | txPush v _ hroom => exact .inl ⟨v, ⟨w, rfl, hi, hw⟩, hroom, rfl⟩
      | _ => exact .inr ⟨rfl, fun _ => rfl⟩
    · exact .inr ⟨rfl, fun _ => rfl⟩

end

/-! ### Each entry goes back to its push -/

section

variable {s₀ s : State} {events : List Event} {e : Event}

/-- A push just made is a push after which nothing emptied the buffer. -/
theorem Pushes.since {v : Byte} (hp : Pushes e s v) (hs : runEvents events s₀ = .next s) :
    PushedSinceLastClear s₀ (events ++ [e]) s.txLen.toNat v := by
  obtain ⟨w, rfl, hw, hrun⟩ := hp
  exact ⟨events, w, [], s, _, rfl, hs, hw, rfl, hrun, rfl, fun mid e rest t h => by simp at h⟩

/-- One more event that does not empty the buffer leaves a push one since the last clear. -/
theorem PushedSinceLastClear.snoc {i : Nat} {v : Byte} (h : PushedSinceLastClear s₀ events i v)
    (hs : runEvents events s₀ = .next s) (he : ¬Empties e s) : PushedSinceLastClear s₀ (events ++ [e]) i v := by
  obtain ⟨pre, w, post, t, u, rfl, ht, hw, hlen, hu, hresp, hkept⟩ := h
  have hpost : runEvents post u = .next s := by
    rw [runEvents_append, ht, andThen_next, runEvents_cons] at hs
    rwa [show runEvent (.cmd w) t = .next u from hu, andThen_next] at hs
  refine ⟨pre, w, post ++ [e], t, u, by simp, ht, hw, hlen, hu, hresp, fun mid f rest x hsplit hx => ?_⟩
  rcases List.eq_nil_or_concat rest with rfl | ⟨rest, g, rfl⟩
  · obtain ⟨rfl, hlast⟩ := List.append_inj' hsplit rfl
    cases hlast
    cases hpost.symm.trans hx
    exact he
  · rw [List.concat_eq_append, ← List.cons_append, ← List.append_assoc] at hsplit
    obtain ⟨rfl, -⟩ := List.append_inj' hsplit rfl
    exact hkept mid f rest x rfl hx

/-- One more event from a state that meets the invariants keeps the spec's nine invariants of the run. -/
theorem RunMeetsSpec.snoc {t : State} (h : RunMeetsSpec s₀ events s) (hs : runEvents events s₀ = .next s)
    (ht : runEvent e s = .next t) (hinv : t.Inv) : RunMeetsSpec s₀ (events ++ [e]) t := by
  refine ⟨hinv.toSpecInv, fun i hi => ?_⟩
  by_cases he : Empties e s
  · rw [he.txLen ht] at hi
    exact absurd hi (Nat.not_lt_zero i)
  obtain ⟨v, hpush, hroom, rfl⟩ | ⟨hlen, hbytes⟩ := pushes_or_keeps he ht
  · rw [State.byteAt_respond, State.byteAt_appendTx]
    split
    next heq => exact heq ▸ hpush.since hs
    next hne =>
      have hlt : i < s.txLen.toNat + 1 := hi.trans_eq (State.toNat_appendTx_txLen h.1.params_wf v hroom)
      exact (h.2 i (by omega)).snoc hs he
  · rw [hbytes]
    exact (h.2 i (hlen ▸ hi)).snoc hs he

end

/-- A run of events from a state without entries goes on and meets the spec's nine invariants. -/
theorem State.Inv.runEvents {s : State} (hs : s.Inv) (hlen : s.txLen = 0) (events : List Event) :
    ∃ t, Machine.runEvents events s = .next t ∧ t.Inv ∧ RunMeetsSpec s events t := by
  induction events using List.reverseRecOn with
  | nil => exact ⟨s, rfl, hs, hs.toSpecInv, fun i hi => by simp [hlen] at hi⟩
  | append_singleton events e ih =>
    obtain ⟨t, ht, hinv, hspec⟩ := ih
    obtain ⟨u, hu, hinv'⟩ := hinv.runEvent e
    refine ⟨u, ?_, hinv', hspec.snoc ht hu hinv'⟩
    rw [runEvents_append, ht, andThen_next, runEvents_cons, hu]
    rfl

/-- Settles O48: the reset state meets the invariants and holds no entry, and both kinds of run keep them. -/
theorem everyRunFromResetMeetsTheSpecsInvariants : Obligations.EveryRunFromResetMeetsTheSpecsInvariants := by
  refine ⟨fun p inputs k hp => ?_, fun p events hp => ?_⟩
  · have hs : State.Inv { State.reset with params := p } := resetStateMeetsTheInvariants.2 p hp
    obtain ⟨t, ht, hinv⟩ := (hs.withInputs inputs).runSteps k
    exact ⟨t, ht, hinv.toSpecInv⟩
  · obtain ⟨t, ht, -, hspec⟩ := (resetStateMeetsTheInvariants.2 p hp).runEvents rfl events
    exact ⟨t, ht, hspec⟩

end Sys2Proof.Machine
end

section
/-! A transmission from its start to its end (41_tick_tx.md R152 to R155, R159): the bits sent so far and the count modulo
`OVERSAMPLING` say where a transmission stands, and each tick moves it on by one. -/

namespace Sys2Proof.Machine

namespace State

/-- How many bits of the stream have been put on the pin (41_tick_tx.md R156). -/
def sentBits (s : State) : Nat := s.txIndex.toNat * s.params.symbolBits + s.txBit.toNat

/-- How many bits the stream of a transmission has. -/
def streamBits (s : State) : Nat := s.txLen.toNat * s.params.symbolBits

/-- Bit `k` of the stream: `W` bits an entry, bit 0 first (30_encoding.md R102). -/
def streamBit (s : State) (k : Nat) : Bool :=
  (s.byteAt .tx (k / s.params.symbolBits)).getLsbD (k % s.params.symbolBits)

variable {s : State}

/-- The bit that the indices select is the next one of the stream. -/
theorem Inv.streamBit_sentBits (hs : s.Inv) :
    s.streamBit s.sentBits = (s.byteAt .tx s.txIndex.toNat).getLsbD s.txBit.toNat := by
  rw [streamBit, sentBits, Nat.mul_add_mod_of_lt hs.txBit_lt, Nat.mul_comm,
    Nat.mul_add_div (Params.facts hs.params_wf).one_le_symbolBits, Nat.div_eq_of_lt hs.txBit_lt, Nat.add_zero]

/-- All bits are sent exactly when all entries are: an exhausted buffer leaves no bit pending (log 12). -/
theorem Inv.sentBits_lt_iff (hs : s.Inv) : s.sentBits < s.streamBits ↔ s.txIndex.toNat < s.txLen.toNat := by
  have hbit := hs.txBit_lt
  constructor
  · intro h
    exact Nat.lt_of_mul_lt_mul_right ((Nat.le_add_right _ _).trans_lt h)
  · intro h
    calc s.sentBits < s.txIndex.toNat * s.params.symbolBits + s.params.symbolBits := Nat.add_lt_add_left hbit _
      _ = (s.txIndex.toNat + 1) * s.params.symbolBits := (Nat.succ_mul ..).symm
      _ ≤ s.streamBits := Nat.mul_le_mul_right _ h

theorem Inv.sentBits_le (hs : s.Inv) : s.sentBits ≤ s.streamBits := by
  rcases hs.txIndex_le_txLen.eq_or_lt with heq | hlt
  · have hbit : s.txBit = 0 := hs.txBit_exhausted (BitVec.eq_of_toNat_eq heq)
    simp [sentBits, streamBits, heq, hbit]
  · exact (hs.sentBits_lt_iff.2 hlt).le

/-- A bit sent is one bit more. -/
theorem Inv.sentBits_sendBit (hs : s.Inv) (b : Bool) (hleft : s.txIndex.toNat < s.txLen.toNat) :
    (s.sendBit b).sentBits = s.sentBits + 1 := by
  have hp := Params.facts hs.params_wf
  have hbit := hs.txBit_lt
  rcases lt_or_ge (s.txBit.toNat + 1) s.params.symbolBits with hin | hend
  · obtain ⟨h, h'⟩ := sendBit_within_entry hp b hin
    simp only [sentBits, h, h', sendBit_params]
    omega
  · obtain ⟨h, h'⟩ := sendBit_at_end_of_entry b hend ((hleft.trans_le hs.txLen_le_cap).trans_le hp.txBufCap_le)
    simp only [sentBits, h, h', sendBit_params, Nat.succ_mul, BitVec.ofNat_eq_ofNat, BitVec.toNat_ofNat, Nat.zero_mod]
    omega

/-- What a tick keeps of a transmission, whether or not it goes on: its buffer and the parameters. -/
structure SameStream (s t : State) : Prop where
  params : t.params = s.params
  txLen : t.txLen = s.txLen
  bytes : ∀ i, t.byteAt .tx i = s.byteAt .tx i

theorem SameStream.refl (s : State) : s.SameStream s := ⟨rfl, rfl, fun _ => rfl⟩

theorem SameStream.trans {t u : State} (h : s.SameStream t) (h' : t.SameStream u) : s.SameStream u :=
  ⟨h'.params.trans h.params, h'.txLen.trans h.txLen, fun i => (h'.bytes i).trans (h.bytes i)⟩

theorem SameStream.streamBits {t : State} (h : s.SameStream t) : t.streamBits = s.streamBits := by
  rw [State.streamBits, State.streamBits, h.params, h.txLen]

theorem SameStream.streamBit {t : State} (h : s.SameStream t) (k : Nat) : t.streamBit k = s.streamBit k := by
  rw [State.streamBit, State.streamBit, h.params, h.bytes]

theorem sameStream_of_exec_tick {t : State} {x : Bool} (h : exec (.tick x) s = .next t) : s.SameStream t := by
  obtain ⟨hparams, -, hlen, hbytes, -⟩ := tickFrame s t x h
  exact ⟨hparams, hlen, hbytes⟩

/-- What `sentBits` is depends on the indices and the parameters only. -/
theorem sentBits_congr {u t : State} (hparams : t.params = u.params) (hbit : t.txBit = u.txBit)
    (hindex : t.txIndex = u.txIndex) : t.sentBits = u.sentBits := by
  rw [sentBits, sentBits, hparams, hbit, hindex]

/-! ### One tick of a transmission -/

/-- Between bit ticks the tick is counted (R152). -/
theorem Inv.tick_between_bits {t : State} {x : Bool} (hs : s.Inv) (ha : s.txActive = true) (hsample : s.txSample ≠ 0)
    (h : Machine.exec (.tick x) s = .next t) :
    t.txActive = true ∧ t.txSample.toNat = (s.txSample.toNat + 1) % 8 ∧ t.sentBits = s.sentBits ∧ t.txOut = s.txOut := by
  have hp := Params.facts hs.params_wf
  obtain ⟨hactive, hcount, hbit, hindex, -, hout, -⟩ := execTick_sameTransmitGroup h (txHalf_between_bits ha hsample)
  refine ⟨hactive.trans ha, ?_, sentBits_congr (sameStream_of_exec_tick h).params hbit hindex, hout⟩
  rw [hcount, toNat_countTxSample hp, hp.oversampling]

/-- On a bit tick with bits left the next one of the stream is sent (R153, R154). -/
theorem Inv.tick_sends {t : State} {x : Bool} (hs : s.Inv) (ha : s.txActive = true) (hsample : s.txSample = 0)
    (hleft : s.sentBits < s.streamBits) (h : Machine.exec (.tick x) s = .next t) :
    t.txActive = true ∧ t.txSample.toNat = 1 ∧ t.sentBits = s.sentBits + 1 ∧ t.txOut = s.streamBit s.sentBits := by
  have hindexLt := hs.sentBits_lt_iff.1 hleft
  obtain ⟨hactive, hcount, hbit, hindex, -, hout, -⟩ :=
    execTick_sameTransmitGroup h (hs.txHalf_sends ha hsample hindexLt)
  refine ⟨hactive.trans ha, ?_, ?_, hout.trans hs.streamBit_sentBits.symm⟩
  · exact congrArg BitVec.toNat (hcount.trans (countTxSample_of_zero (Params.facts hs.params_wf) hsample))
  · rw [← hs.sentBits_sendBit ((s.byteAt .tx s.txIndex.toNat).getLsbD s.txBit.toNat) hindexLt]
    exact sentBits_congr (sameStream_of_exec_tick h).params hbit hindex

/-- On a bit tick with no bit left the transmission ends (R155). -/
theorem Inv.tick_completes {t : State} {x : Bool} (hs : s.Inv) (ha : s.txActive = true) (hsample : s.txSample = 0)
    (hsent : s.streamBits ≤ s.sentBits) (h : Machine.exec (.tick x) s = .next t) :
    t.txActive = false ∧ t.txOut = false ∧ t.txSample = 0 ∧ t.txBit = 0 ∧ t.txIndex = s.txLen := by
  have hlast : s.txLen.toNat ≤ s.txIndex.toNat := not_lt.1 fun hlt => not_lt.2 hsent (hs.sentBits_lt_iff.2 hlt)
  obtain ⟨u, hu, hout, hactive, hzero, -, hbit, -, hindex⟩ := bitTickAfterTheLastBitCompletes s x hs ha hsample hlast
  cases h.symm.trans hu
  exact ⟨hactive, hout, hzero, hbit, hindex⟩

/-! ### The timeline -/

/-- State `v` stands `T` ticks into the transmission of the buffer that `s` holds: `ceil(T / 8)` bits are sent, and the pin
shows the last of them (R159). -/
structure Sending (s : State) (T : Nat) (v : State) : Prop where
  inv : v.Inv
  stream : s.SameStream v
  active : v.txActive = true
  sample : v.txSample.toNat = T % 8
  sent : v.sentBits = (T + 7) / 8
  out : 0 < T → v.txOut = s.streamBit ((T - 1) / 8)

/-- `TX_START` stands at the beginning (R150). -/
theorem Inv.sending_start (hs : s.Inv) : s.Sending 0 (s.startTx.respond .ok 0) :=
  ⟨hs.startTx.respond .ok 0, ⟨rfl, rfl, fun _ => rfl⟩, rfl, rfl, Nat.zero_mul _, fun h => absurd h (lt_irrefl 0)⟩

/-- Up to the last bit's ticks a tick leads to the next place of the timeline. -/
theorem Sending.tick {v t : State} {T : Nat} {x : Bool} (h : s.Sending T v) (hT : T < 8 * s.streamBits)
    (ht : Machine.exec (.tick x) v = .next t) : s.Sending (T + 1) t := by
  have hstream := h.stream.trans (sameStream_of_exec_tick ht)
  have hsample := h.sample
  have hsent := h.sent
  by_cases hzero : v.txSample = 0
  · have hmod : T % 8 = 0 := by simpa [hzero] using hsample.symm
    obtain ⟨hactive, hone, hmore, hout⟩ := h.inv.tick_sends h.active hzero
      (by rw [hsent, h.stream.streamBits]; omega) ht
    refine ⟨h.inv.of_exec ht, hstream, hactive, by omega, by omega, fun _ => ?_⟩
    rw [hout, hsent, h.stream.streamBit]
    congr 1
    omega
  · have hmod : T % 8 ≠ 0 := fun hmod => hzero (BitVec.eq_of_toNat_eq (hsample.trans hmod))
    obtain ⟨hactive, hcount, hsame, hout⟩ := h.inv.tick_between_bits h.active hzero ht
    refine ⟨h.inv.of_exec ht, hstream, hactive, by omega, by omega, fun _ => ?_⟩
    rw [hout, h.out (by omega)]
    congr 1
    omega

/-- Ticks in a row lead on along the timeline. -/
theorem Sending.runTicks {v : State} {T : Nat} (h : s.Sending T v) {xs : List Bool}
    (hT : T + xs.length ≤ 8 * s.streamBits) :
    ∃ t, Machine.runTicks xs v = .next t ∧ s.Sending (T + xs.length) t := by
  induction xs generalizing T v with
  | nil => exact ⟨v, rfl, h⟩
  | cons x xs ih =>
    rw [List.length_cons] at hT
    obtain ⟨t, ht, -⟩ := h.inv.exec_tick x
    obtain ⟨u, hu, hend⟩ := ih (h.tick (by omega) ht) (by omega)
    refine ⟨u, ?_, ?_⟩
    · rw [runTicks_cons, ht]
      exact hu
    · rwa [List.length_cons, Nat.add_comm xs.length 1, ← Nat.add_assoc]

/-- The tick after the last bit's ticks ends the transmission (R155, R159). -/
theorem Sending.completes {v t : State} {x : Bool} (h : s.Sending (8 * s.streamBits) v)
    (ht : Machine.exec (.tick x) v = .next t) :
    t.txActive = false ∧ t.txOut = false ∧ t.txSample = 0 ∧ t.txBit = 0 ∧ t.txIndex = s.txLen := by
  have hzero : v.txSample = 0 := BitVec.eq_of_toNat_eq (h.sample.trans (Nat.mul_mod_right 8 _))
  have hsent := h.sent
  rw [← h.stream.txLen]
  exact h.inv.tick_completes h.active hzero (by rw [h.stream.streamBits]; omega) ht

end State

/-- Settles O33: `TX_START` stands at tick 0 of the timeline, and each tick leads on along it. -/
theorem transmissionFollowsItsTimeline : Obligations.TransmissionFollowsItsTimeline := by
  intro s u xs hs hidle hu
  cases (exec_txStart_idle hs.params_wf hidle).symm.trans hu
  have hstart := hs.sending_start
  refine ⟨fun t hlen ht => ?_, fun hlen => ?_⟩
  · obtain ⟨v, hv, hplace⟩ := hstart.runTicks (xs := xs) (by rw [State.streamBits]; omega)
    refine ⟨v, hv, hplace.active, ?_⟩
    have hout := hplace.out (by omega)
    rwa [show (0 + xs.length - 1) / 8 = t / 8 by omega, State.streamBit] at hout
  · obtain ⟨ys, x, rfl⟩ : ∃ ys x, xs = ys ++ [x] := by
      rcases List.eq_nil_or_concat xs with rfl | h
      · simp at hlen
      · simpa [List.concat_eq_append] using h
    have hlen : ys.length = 8 * s.streamBits := by simpa [State.streamBits] using hlen
    obtain ⟨v, hv, hplace⟩ := hstart.runTicks (xs := ys) (by omega)
    obtain ⟨w, hw, -⟩ := hplace.inv.exec_tick x
    rw [Nat.zero_add, hlen] at hplace
    obtain ⟨hactive, hout, hsample, hbit, hindex⟩ := hplace.completes hw
    have hsame := hplace.stream.trans (State.sameStream_of_exec_tick hw)
    refine ⟨w, ?_, hactive, hout, hsample, hbit, hindex, hsame.txLen, hsame.bytes⟩
    rw [runTicks_append, hv, andThen_next, runTicks_cons, hw]
    rfl

end Sys2Proof.Machine
end

section
/-! How often a running receiver decides a bit (40_tick_rx.md R140) and how long a frame stays open
(70_reset_and_hazards.md R274): what one tick does to the ramp, followed along runs of ticks. -/

namespace Sys2Proof.Machine

namespace State

variable {s t : State} {x : Bool}

/-- A tick of a running receiver: the ramp moves on by its increment, less `RAMP_MAX` on a bit tick (R123, R126). -/
theorem Inv.ramp_of_tick (hs : s.Inv) (hr : s.ReceiverRuns) (h : Machine.exec (.tick x) s = .next t) :
    t.ramp.toNat = if s.isBitTick x then s.rampSum x - s.params.rampMax else s.rampSum x := by
  have hp := Params.facts hs.params_wf
  obtain ⟨u, hu, -, hbelow, hwrap⟩ := rampAdvancesAndWrapsIntoABit s x _ hs hr (s.rampStep_eq hp x)
  cases h.symm.trans hu
  cases hb : s.isBitTick x with
  | false => exact (hbelow (not_le.1 (of_decide_eq_false hb))).1
  | true => exact (hwrap (of_decide_eq_true hb)).1

/-- A receiver without the gate runs exactly while it is enabled (R121). -/
theorem receiverRuns_of_ungated (hgate : s.params.rxGatedByTx = false) (he : s.rxEnabled = true) : s.ReceiverRuns :=
  ⟨he, fun h => Bool.eq_false_iff.1 hgate h.1⟩

/-- A receiver that runs without the gate: what a tick keeps of this is said once, in `Listening.tick`. -/
structure Listening (s : State) : Prop where
  inv : s.Inv
  ungated : s.params.rxGatedByTx = false
  enabled : s.rxEnabled = true

theorem Listening.runs (h : s.Listening) : s.ReceiverRuns := receiverRuns_of_ungated h.ungated h.enabled

/-- A tick goes on, and the receiver still runs, with the same parameters, the sample remembered and the ramp moved on. -/
theorem Listening.tick (h : s.Listening) (x : Bool) :
    ∃ t, exec (.tick x) s = .next t ∧ t.Listening ∧ t.params = s.params ∧ t.lastSample = x ∧
      t.ramp.toNat = if s.isBitTick x then s.rampSum x - s.params.rampMax else s.rampSum x := by
  obtain ⟨t, ht, hinv⟩ := h.inv.exec_tick x
  obtain ⟨hparams, henabled, -⟩ := tickFrame s t x ht
  obtain ⟨hlast, -⟩ := receiveHalfRunsOnlyWhenEnabledAndUngated s t x ht
  exact ⟨t, ht, ⟨hinv, hparams ▸ h.ungated, henabled.trans h.enabled⟩, hparams, hlast h.runs,
    h.inv.ramp_of_tick h.runs ht⟩

theorem isBitTick_iff : s.isBitTick x = true ↔ s.params.rampMax ≤ s.ramp.toNat + s.rampStep x := decide_eq_true_iff

/-- A tick with the sample last seen advances the ramp nominally (R123). -/
theorem rampStep_quiet (s : State) : s.rampStep s.lastSample = s.params.rampInc := by
  simp [rampStep, isTransition]

/-! ### A quiet line -/

/-- After `j` ticks with the sample last seen, at most `OVERSAMPLING`, the ramp has moved on by `j` nominal increments,
modulo `RAMP_MAX` (R140). -/
theorem Listening.quiet (h : s.Listening) {j : Nat} (hj : j ≤ 8) :
    ∃ t, runTicks (List.replicate j s.lastSample) s = .next t ∧ t.Listening ∧ t.params = s.params ∧
      t.lastSample = s.lastSample ∧
      t.ramp.toNat = if s.params.rampMax ≤ s.ramp.toNat + j * s.params.rampInc
        then s.ramp.toNat + j * s.params.rampInc - s.params.rampMax else s.ramp.toNat + j * s.params.rampInc := by
  have hlt := h.inv.ramp_lt
  have hmax := (Params.facts h.inv.params_wf).rampMax_eq
  induction j with
  | zero => exact ⟨s, rfl, h, rfl, rfl, by simp [not_le.2 hlt]⟩
  | succ j ih =>
    obtain ⟨t, ht, hl, hparams, hlast, hramp⟩ := ih (by omega)
    obtain ⟨u, hu, hl', hparams', hlast', hramp'⟩ := hl.tick s.lastSample
    refine ⟨u, ?_, hl', hparams'.trans hparams, hlast', ?_⟩
    · rw [List.replicate_succ', runTicks_append, ht, andThen_next, runTicks_cons, hu]
      rfl
    · have hstep : t.rampStep s.lastSample = s.params.rampInc := by
        rw [← hlast, t.rampStep_quiet, hparams]
      have hj8 : j * s.params.rampInc + s.params.rampInc ≤ 8 * s.params.rampInc := by
        rw [← Nat.succ_mul]
        exact Nat.mul_le_mul_right _ hj
      rw [hramp']
      simp only [isBitTick_iff, rampSum, hstep, hparams, hramp, Nat.succ_mul]
      split_ifs <;> omega

/-- The tick among them that wraps: the one whose increment crosses `RAMP_MAX`. -/
theorem quiet_isBitTick_iff {s t : State} {j : Nat} (hs : s.Inv) (hj : j < 8)
    (hparams : t.params = s.params) (hlast : t.lastSample = s.lastSample)
    (hramp : t.ramp.toNat = if s.params.rampMax ≤ s.ramp.toNat + j * s.params.rampInc
      then s.ramp.toNat + j * s.params.rampInc - s.params.rampMax else s.ramp.toNat + j * s.params.rampInc) :
    t.isBitTick s.lastSample = true ↔ j = (s.params.rampMax - s.ramp.toNat - 1) / s.params.rampInc := by
  have hlt := hs.ramp_lt
  have hp := Params.facts hs.params_wf
  have hmax := hp.rampMax_eq
  have hinc : 0 < s.params.rampInc := by have := hp.one_le_retard; have := hp.retard_le; omega
  have hstep : t.rampStep s.lastSample = s.params.rampInc := by
    rw [← hlast, t.rampStep_quiet, hparams]
  have hj8 : j * s.params.rampInc + s.params.rampInc ≤ 8 * s.params.rampInc := by
    rw [← Nat.succ_mul]
    exact Nat.mul_le_mul_right _ hj
  rw [isBitTick_iff, hstep, hparams, hramp, eq_comm (a := j), Nat.div_eq_iff hinc]
  split_ifs <;> omega

end State

/-- Settles O51: along eight quiet ticks the ramp makes one turn, and crosses `RAMP_MAX` in one of them. -/
theorem quietLineDecidesOneBitInEightTicks : Obligations.QuietLineDecidesOneBitInEightTicks := by
  intro s hs hgate he
  have hl : s.Listening := ⟨hs, hgate, he⟩
  have hp := Params.facts hs.params_wf
  have hlt := hs.ramp_lt
  have hmax := hp.rampMax_eq
  obtain ⟨t, ht, -, -, -, hramp⟩ := hl.quiet (j := 8) le_rfl
  refine ⟨t, (s.params.rampMax - s.ramp.toNat - 1) / s.params.rampInc, ht, BitVec.eq_of_toNat_eq ?_, ?_,
    fun j u hj hu => ?_⟩
  · rw [hramp, if_pos (by omega)]
    omega
  · exact Nat.div_lt_of_lt_mul (by omega)
  · obtain ⟨v, hv, -, hparams, hlast, hramp⟩ := hl.quiet hj.le
    cases hu.symm.trans hv
    exact State.quiet_isBitTick_iff hs hj hparams hlast hramp

/-! ### Bit ticks in P0 -/

namespace State

variable {s t : State} {x : Bool}

/-- In P0 the ramp moves on by 20 without a transition, and by 11 or 29 with one, before or after the midpoint. -/
theorem rampStep_p0 (hp0 : s.params = Params.p0) (x : Bool) :
    s.rampStep x = if x = s.lastSample then 20 else if s.ramp.toNat < 80 then 11 else 29 := by
  rw [s.rampStep_eq (Params.facts (hp0 ▸ reset_params_wf)), hp0]
  rfl

theorem isBitTick_p0 (hp0 : s.params = Params.p0) : s.isBitTick x = true ↔ 160 ≤ s.ramp.toNat + s.rampStep x := by
  rw [isBitTick_iff, hp0]
  rfl

/-- In P0 a wrap leaves at most 28 of the ramp (R140). -/
theorem Listening.ramp_after_wrap_p0 (h : s.Listening) (hp0 : s.params = Params.p0) (hb : s.isBitTick x = true)
    (ht : exec (.tick x) s = .next t) : t.ramp.toNat ≤ 28 := by
  have hlt : s.ramp.toNat < 160 := by simpa [hp0, Params.p0] using h.inv.ramp_lt
  have hstep := rampStep_p0 hp0 x
  rw [h.inv.ramp_of_tick h.runs ht, if_pos hb, rampSum, hp0]
  simp only [Params.p0]
  split_ifs at hstep <;> omega

/-- From a remainder of at most 28 the ramp stays, for four ticks, too low to wrap on the next one (R140). -/
theorem Listening.no_bit_tick_p0 (h : s.Listening) (hp0 : s.params = Params.p0) {j : Nat} {xs : List Bool}
    (hj : j + xs.length ≤ 4) (hramp : s.ramp.toNat ≤ 28 + 20 * j + 9 * (j - 3)) (ht : runTicks xs s = .next t)
    (x : Bool) : t.isBitTick x = false := by
  have below {s : State} {j : Nat} (hp0 : s.params = Params.p0) (hj : j ≤ 4)
      (hramp : s.ramp.toNat ≤ 28 + 20 * j + 9 * (j - 3)) (x : Bool) :
      s.isBitTick x = false ∧ s.rampSum x ≤ 28 + 20 * (j + 1) + 9 * (j + 1 - 3) := by
    have hstep := rampStep_p0 hp0 x
    rw [← Bool.not_eq_true, isBitTick_p0 hp0, rampSum]
    split_ifs at hstep <;> omega
  induction xs generalizing s j with
  | nil =>
    cases ht
    exact (below hp0 hj hramp x).1
  | cons y ys ih =>
    rw [List.length_cons] at hj
    obtain ⟨u, hu, hl, hparams, -, hnext⟩ := h.tick y
    obtain ⟨hno, hsum⟩ := below hp0 (by omega) hramp y
    rw [hno] at hnext
    rw [runTicks_cons, hu, andThen_next] at ht
    exact ih hl (hparams.trans hp0) (j := j + 1) (by omega) (hnext.trans_le hsum) ht

/-- Whatever the samples, the ramp climbs past `RAMP_MAX` within twelve ticks (R140). -/
theorem Listening.bit_tick_within_p0 (h : s.Listening) (hp0 : s.params = Params.p0) {j : Nat} {xs : List Bool}
    (hj : j + xs.length = 12) (hne : xs ≠ []) (hramp : 11 * j + 9 * (j - 8) ≤ s.ramp.toNat) :
    ∃ ys x zs t, xs = ys ++ x :: zs ∧ runTicks ys s = .next t ∧ t.isBitTick x = true := by
  induction xs generalizing s j with
  | nil => exact absurd rfl hne
  | cons y ys ih =>
    rw [List.length_cons] at hj
    cases hb : s.isBitTick y with
    | true => exact ⟨[], y, ys, s, rfl, rfl, hb⟩
    | false =>
      obtain ⟨u, hu, hl, hparams, -, hnext⟩ := h.tick y
      have hstep := rampStep_p0 hp0 y
      have hsum : 11 * (j + 1) + 9 * (j + 1 - 8) ≤ s.rampSum y := by
        rw [rampSum]
        split_ifs at hstep <;> omega
      have hlow : s.rampSum y < 160 := by
        rw [← Bool.not_eq_true, isBitTick_p0 hp0] at hb
        exact not_le.1 hb
      rw [hb] at hnext
      obtain ⟨zs, x, ws, t, rfl, ht, hbit⟩ := ih hl (hparams.trans hp0) (j := j + 1) (by omega)
        (fun hnil => by simp [hnil] at hj; omega) (hsum.trans_eq hnext.symm)
      exact ⟨y :: zs, x, ws, t, rfl, by rw [runTicks_cons, hu]; exact ht, hbit⟩

end State

/-- Settles O52: a wrap leaves at most 28, which is too low to wrap again for five ticks, and any ramp wraps within
twelve. -/
theorem bitTicksAreSixToTwelveTicksApart : Obligations.BitTicksAreSixToTwelveTicksApart := by
  intro s hs hp0 he
  have hl : s.Listening := ⟨hs, hp0 ▸ rfl, he⟩
  refine ⟨fun x t hb ht => hl.ramp_after_wrap_p0 hp0 hb ht, fun hramp x xs t hlen ht => ?_, fun xs hlen => ?_⟩
  · exact hl.no_bit_tick_p0 hp0 (j := 0) (by omega) hramp ht x
  · exact hl.bit_tick_within_p0 hp0 (j := 0) (by omega) (fun hnil => by simp [hnil] at hlen) (Nat.zero_le _)

end Sys2Proof.Machine
end

section
/-! A frame does not stay open (70_reset_and_hazards.md R274): the bits it may still take, and the ticks to the next of
them, go down. -/

namespace Sys2Proof

/-- A dividend that is larger by the divisor makes the rounded-up quotient larger by one. -/
theorem Params.ceilDiv_add_right (a : Nat) {b : Nat} (hb : 1 ≤ b) : ceilDiv (a + b) b = ceilDiv a b + 1 := by
  rw [ceilDiv, ceilDiv, show a + b + b - 1 = a + b - 1 + b by omega, Nat.add_div_right _ hb]

theorem Params.ceilDiv_mono {a a' : Nat} (h : a ≤ a') (b : Nat) : ceilDiv a b ≤ ceilDiv a' b :=
  Nat.div_le_div_right (by omega)

end Sys2Proof

namespace Sys2Proof.Machine.State

variable {s t : State} {x : Bool}

/-- How many bits the open frame takes if it runs to `MESSAGE_MAX`. -/
def frameBitsLeft (s : State) : Nat :=
  2 * s.params.symbolBits * (s.params.messageMax - s.bufLen.toNat) - s.bitCount.toNat

/-- A bound on the ticks to the next bit: the ramp moves by at least the retard increment (R123). -/
def ticksToBit (s : State) : Nat := Params.ceilDiv (s.params.rampMax - s.ramp.toNat) s.params.rampIncRetard

/-- The most ticks that a bit takes (R274). -/
def ticksPerBit (p : Params) : Nat := Params.ceilDiv p.rampMax p.rampIncRetard

theorem ticksToBit_le (s : State) : s.ticksToBit ≤ ticksPerBit s.params :=
  Params.ceilDiv_mono (Nat.sub_le _ _) _

theorem Inv.ticksToBit_pos (hs : s.Inv) : 0 < s.ticksToBit := by
  have hlt := hs.ramp_lt
  have hone := (Params.facts hs.params_wf).one_le_retard
  exact Nat.div_pos (by omega) hone

/-- An open frame has not reached `MESSAGE_MAX` (R139). -/
theorem Inv.bufLen_lt_messageMax (hs : s.Inv) (ha : s.rxActive = true) : s.bufLen.toNat < s.params.messageMax := by
  have hp := Params.facts hs.params_wf
  have hmin := hp.one_le_messageMin
  have hmax := hp.messageMin_le
  rcases Nat.eq_zero_or_pos s.bufLen.toNat with hzero | hpos
  · omega
  · obtain ⟨-, hle⟩ : _ ∧ s.expLen.toNat ≤ s.params.messageMax := of_decide_eq_true (hs.expLen_ok hpos)
    exact (hs.active_partial ha hpos).trans_le hle

theorem Inv.frameBitsLeft_pos (hs : s.Inv) (ha : s.rxActive = true) : 0 < s.frameBitsLeft := by
  have hlen := hs.bufLen_lt_messageMax ha
  have hbits := hs.bitCount_lt
  have hfits : 2 * s.params.symbolBits * 1 ≤ 2 * s.params.symbolBits * (s.params.messageMax - s.bufLen.toNat) :=
    Nat.mul_le_mul_left _ (by omega)
  unfold frameBitsLeft
  omega

/-- Below `RAMP_MAX` a tick leaves the frame as it is and brings the next bit nearer. -/
theorem Listening.tick_below (h : s.Listening) (hb : s.isBitTick x = false) (ht : exec (.tick x) s = .next t) :
    t.frameBitsLeft = s.frameBitsLeft ∧ t.ticksToBit < s.ticksToBit := by
  have hp := Params.facts h.inv.params_wf
  have hstep := (s.rampStep_bounds hp x).1
  have hlt : s.rampSum x < s.params.rampMax := not_le.1 (of_decide_eq_false hb)
  obtain ⟨hparams, -⟩ := tickFrame s t x ht
  obtain ⟨u, hu, -, hbelow, -⟩ := rampAdvancesAndWrapsIntoABit s x _ h.inv h.runs (s.rampStep_eq hp x)
  cases ht.symm.trans hu
  obtain ⟨hramp, -, -, -, -, hbits, hlen, -⟩ := hbelow hlt
  refine ⟨by rw [frameBitsLeft, frameBitsLeft, hparams, hbits, hlen], ?_⟩
  rw [ticksToBit, ticksToBit, hparams, ← Nat.add_one_le_iff, ← Params.ceilDiv_add_right _ hp.one_le_retard]
  refine Params.ceilDiv_mono ?_ _
  rw [rampSum] at hlt
  omega

/-- The byte that a bit tick with this sample would decode (R132). -/
def windowByte (s : State) (x : Bool) : Byte :=
  decode8 s.params (Config.freeNibble s.draws) (Config.freeNibble (s.draws + 1))
    (shiftIn s.params s.hist (s.decidedBit x))

/-- A bit tick ends the frame or leaves it one bit fewer to take. -/
theorem Listening.tick_bit (h : s.Listening) (ha : s.rxActive = true) (hb : s.isBitTick x = true)
    (ht : exec (.tick x) s = .next t) : t.rxActive = false ∨ t.frameBitsLeft + 1 = s.frameBitsLeft := by
  have hs := h.inv
  have hlen := hs.bufLen_lt_messageMax ha
  have hpos := hs.frameBitsLeft_pos ha
  obtain ⟨hparams, -⟩ := tickFrame s t x ht
  rcases Nat.lt_or_ge (s.bitCount.toNat + 1) (2 * s.params.symbolBits) with hlt | hge
  · obtain ⟨u, hu, hcounted, -⟩ := frameBitsAreCounted s x hs h.runs hb ha
    cases ht.symm.trans hu
    obtain ⟨hbits, -, -, hsame, -⟩ := hcounted hlt
    right
    rw [frameBitsLeft] at hpos
    rw [frameBitsLeft, frameBitsLeft, hparams, hbits, hsame]
    omega
  · have hfull : s.bitCount.toNat + 1 = 2 * s.params.symbolBits := Nat.le_antisymm hs.bitCount_lt hge
    by_cases hfirst : s.bufLen = 0 → s.params.messageMin ≤ (windowByte s x).toNat ∧
        (windowByte s x).toNat ≤ s.params.messageMax
    · obtain ⟨u, hu, hbits, -, -, hmore, -⟩ := acceptedByteIsStoredAndMayEndTheFrame s x (s.windowByte x) hs h.runs
        hb ha hfull rfl hfirst
      cases ht.symm.trans hu
      cases hactive : t.rxActive with
      | false => exact .inl rfl
      | true =>
        have hopen := (hs.of_exec ht).frameBitsLeft_pos hactive
        have hsplit : s.params.messageMax - s.bufLen.toNat = s.params.messageMax - (s.bufLen.toNat + 1) + 1 := by omega
        right
        rw [frameBitsLeft, hparams, hbits, hmore] at hopen ⊢
        rw [frameBitsLeft, hsplit, Nat.mul_succ]
        simp only [BitVec.ofNat_eq_ofNat, BitVec.toNat_ofNat, Nat.zero_mod] at hopen ⊢
        omega
    · obtain ⟨hzero, hrange⟩ := Classical.not_imp.1 hfirst
      obtain ⟨u, hu, hactive, -⟩ :=
        firstByteOutOfRangeAbandonsTheFrame s x (s.windowByte x) hs h.runs hb ha hfull hzero rfl (by omega)
      cases ht.symm.trans hu
      exact .inl hactive

/-- A bound on the ticks that the open frame still takes (R274). -/
def frameTicksLeft (s : State) : Nat := ticksPerBit s.params * (s.frameBitsLeft - 1) + s.ticksToBit

/-- Each tick ends the frame or brings its end nearer. -/
theorem Listening.tick_nearer (h : s.Listening) (ha : s.rxActive = true) (ht : exec (.tick x) s = .next t) :
    t.rxActive = false ∨ t.frameTicksLeft < s.frameTicksLeft := by
  obtain ⟨hparams, -⟩ := tickFrame s t x ht
  cases hb : s.isBitTick x with
  | false =>
    obtain ⟨hbits, hticks⟩ := h.tick_below hb ht
    rw [frameTicksLeft, frameTicksLeft, hparams, hbits]
    exact .inr (Nat.add_lt_add_left hticks _)
  | true =>
    cases hactive : t.rxActive with
    | false => exact .inl rfl
    | true =>
      have hbits : t.frameBitsLeft + 1 = s.frameBitsLeft :=
        (h.tick_bit ha hb ht).resolve_left (by simp [hactive])
      have hopen := (h.inv.of_exec ht).frameBitsLeft_pos hactive
      right
      calc t.frameTicksLeft
          ≤ ticksPerBit s.params * (t.frameBitsLeft - 1) + ticksPerBit s.params := by
            rw [frameTicksLeft, hparams]
            exact Nat.add_le_add_left (hparams ▸ t.ticksToBit_le) _
        _ = ticksPerBit s.params * (s.frameBitsLeft - 1) := by
            rw [← Nat.mul_succ, ← hbits]
            congr 1
            omega
        _ < s.frameTicksLeft := Nat.lt_add_of_pos_right h.inv.ticksToBit_pos

/-- Among as many ticks as the bound says the frame ends. -/
theorem Listening.frame_ends (h : s.Listening) (ha : s.rxActive = true) {xs : List Bool}
    (hlen : s.frameTicksLeft ≤ xs.length) :
    ∃ k t, k ≤ xs.length ∧ runTicks (xs.take k) s = .next t ∧ t.rxActive = false := by
  induction xs generalizing s with
  | nil => exact absurd (h.inv.ticksToBit_pos.trans_le (Nat.le_add_left ..)) (not_lt.2 hlen)
  | cons x xs ih =>
    rw [List.length_cons] at hlen
    obtain ⟨t, ht, hl, -⟩ := h.tick x
    cases hactive : t.rxActive with
    | false => exact ⟨1, t, by simp, by simp [ht], hactive⟩
    | true =>
      have hnearer := (h.tick_nearer ha ht).resolve_left (by simp [hactive])
      obtain ⟨k, u, hk, hu, hend⟩ := ih hl hactive (by omega)
      exact ⟨k + 1, u, by simpa using hk, by simpa [ht] using hu, hend⟩

/-- The bound of an open frame is at most that of `MESSAGE_MAX` bytes. -/
theorem Inv.frameTicksLeft_le (hs : s.Inv) (ha : s.rxActive = true) :
    s.frameTicksLeft ≤ 2 * s.params.symbolBits * s.params.messageMax * ticksPerBit s.params :=
  calc s.frameTicksLeft
      ≤ ticksPerBit s.params * (s.frameBitsLeft - 1) + ticksPerBit s.params := Nat.add_le_add_left s.ticksToBit_le _
    _ = ticksPerBit s.params * s.frameBitsLeft := by
        rw [← Nat.mul_succ, Nat.succ_eq_add_one, Nat.sub_add_cancel (hs.frameBitsLeft_pos ha)]
    _ ≤ ticksPerBit s.params * (2 * s.params.symbolBits * s.params.messageMax) :=
        Nat.mul_le_mul_left _ ((Nat.sub_le _ _).trans (Nat.mul_le_mul_left _ (Nat.sub_le _ _)))
    _ = 2 * s.params.symbolBits * s.params.messageMax * ticksPerBit s.params := Nat.mul_comm ..

end Sys2Proof.Machine.State

namespace Sys2Proof.Machine

/-- Settles O50: the bound on the ticks left goes down with each tick of an open frame. -/
theorem activeEndsWithinTheBound : Obligations.ActiveEndsWithinTheBound := fun _ _ hs hgate ha hlen =>
  State.Listening.frame_ends ⟨hs, hgate, hs.active_enabled ha⟩ ha ((hs.frameTicksLeft_le ha).trans_eq hlen.symm)

end Sys2Proof.Machine
end

section
/-! The checksum and the checks of `recv` (46_link_layer_contract.md R202 to R207): a shift of `CRC16` respects exclusive or
and loses nothing, so the complement closes any list with the residue, and one flipped bit is not forgotten. -/

namespace Sys2Proof.Machine

/-! ### The shifts of the checksum -/

/-- A shift drops bit 0 and, if that was 1, adds the polynomial (R204). -/
theorem crcShift_eq (c : Word) : crcShift c = c >>> 1 ^^^ (if c.getLsbD 0 then 0x8408#16 else 0#16) := by
  unfold crcShift
  split <;> simp

/-- A shift respects exclusive or (R204). -/
theorem crcShift_xor (a b : Word) : crcShift (a ^^^ b) = crcShift a ^^^ crcShift b := by
  have hpoly : (if (a ^^^ b).getLsbD 0 then 0x8408#16 else 0#16) =
      (if a.getLsbD 0 then 0x8408#16 else 0#16) ^^^ (if b.getLsbD 0 then 0x8408#16 else 0#16) := by
    rw [BitVec.getLsbD_xor]
    cases a.getLsbD 0 <;> cases b.getLsbD 0 <;> rfl
  rw [crcShift_eq, crcShift_eq, crcShift_eq, hpoly, BitVec.ushiftRight_xor_distrib]
  ac_rfl

/-- The polynomial's top bit is 1, so a shift shows at bit 15 the bit that it dropped (R204). -/
theorem getLsbD_crcShift_top (c : Word) : (crcShift c).getLsbD 15 = c.getLsbD 0 := by
  rw [crcShift_eq]
  cases c.getLsbD 0 <;> simp

/-- A shift gives 0 only from 0. -/
theorem eq_zero_of_crcShift {c : Word} (h : crcShift c = 0) : c = 0 := by
  have hlow : c.getLsbD 0 = false := by
    rw [← getLsbD_crcShift_top, h]
    rfl
  have hhigh : c >>> 1 = 0 := by rwa [crcShift_eq, hlow, if_neg Bool.false_ne_true, BitVec.xor_zero] at h
  refine BitVec.eq_of_getLsbD_eq fun i _ => ?_
  cases i with
  | zero => exact hlow
  | succ i => simpa [Nat.add_comm] using congrArg (·.getLsbD i) hhigh

/-- A shift loses nothing. -/
theorem crcShift_injective : Function.Injective crcShift := fun a b h => by
  have hzero : crcShift (a ^^^ b) = 0 := by rw [crcShift_xor, h, BitVec.xor_self]; rfl
  exact BitVec.xor_eq_zero_iff.1 (eq_zero_of_crcShift hzero)

/-- The eight shifts of one byte (R204). -/
def crcShifts (c : Word) : Word := crcShift^[8] c

theorem crcByte_eq (c : Word) (b : Byte) : crcByte c b = crcShifts (c ^^^ b.setWidth 16) := rfl

theorem crcShifts_xor (a b : Word) : crcShifts (a ^^^ b) = crcShifts a ^^^ crcShifts b :=
  Function.Semiconj₂.iterate crcShift_xor 8 a b

theorem crcShifts_injective : Function.Injective crcShifts := crcShift_injective.iterate 8

/-- A shift of a number that is even halves it. -/
theorem crcShift_of_even {c : Word} (h : c.toNat % 2 = 0) : (crcShift c).toNat = c.toNat / 2 := by
  have hlow : c.getLsbD 0 = false := by simp [BitVec.getLsbD, Nat.testBit_zero, h]
  rw [crcShift_eq, hlow, if_neg Bool.false_ne_true, BitVec.xor_zero, BitVec.toNat_ushiftRight, Nat.shiftRight_eq_div_pow,
    pow_one]

/-- `k` shifts of a byte that stands `k` bits up move it down. -/
theorem crcShift_iterate_high (b : Byte) {k : Nat} (hk : k ≤ 8) {c : Word} (hc : c.toNat = b.toNat * 2 ^ k) :
    crcShift^[k] c = b.setWidth 16 := by
  induction k generalizing c with
  | zero =>
    apply BitVec.eq_of_toNat_eq
    rw [Function.iterate_zero_apply, hc, BitVec.toNat_setWidth_of_le (by decide), pow_zero, Nat.mul_one]
  | succ k ih =>
    rw [pow_succ, ← Nat.mul_assoc] at hc
    rw [Function.iterate_succ_apply]
    refine ih (by omega) ?_
    rw [crcShift_of_even (by omega), hc, Nat.mul_div_cancel _ two_pos]

/-- Eight shifts of a high byte move it down. -/
theorem crcShifts_high (b : Byte) : crcShifts (b.setWidth 16 <<< 8) = b.setWidth 16 := by
  have := b.isLt
  refine crcShift_iterate_high b le_rfl ?_
  rw [BitVec.toNat_shiftLeft, BitVec.toNat_setWidth_of_le (by decide), Nat.shiftLeft_eq]
  omega

/-! ### The residue -/

/-- The low byte of the complement turns the low byte of the state into 0xFF. -/
theorem xor_low_complement (c : Word) : c ^^^ ((c ^^^ 0xFFFF).extractLsb' 0 8).setWidth 16 =
    (c.extractLsb' 8 8).setWidth 16 <<< 8 ^^^ 0x00FF := by
  ext i hi
  interval_cases i <;> simp

/-- The high byte of the complement is the complement of the high byte. -/
theorem high_complement (c : Word) : ((c ^^^ 0xFFFF).extractLsb' 8 8).setWidth 16 =
    (c.extractLsb' 8 8).setWidth 16 ^^^ 0x00FF := by
  ext i hi
  interval_cases i <;> simp

/-- A checksum goes on where it stood. -/
theorem crc16_append (xs ys : List Byte) : crc16 (xs ++ ys) = ys.foldl crcByte (crc16 xs) := List.foldl_append

/-- From any state the complement of the state, low byte first, leads to the residue (R204). -/
theorem crcByte_complement (c : Word) : (lowFirst (c ^^^ 0xFFFF)).foldl crcByte c = crcResidue := by
  have hlow : crcByte c ((c ^^^ 0xFFFF).extractLsb' 0 8) = (c.extractLsb' 8 8).setWidth 16 ^^^ crcShifts 0x00FF := by
    rw [crcByte_eq, xor_low_complement, crcShifts_xor, crcShifts_high]
  have hconst : crcShifts (crcShifts 0x00FF ^^^ 0x00FF) = crcResidue := by
    simp [crcShifts, crcShift, crcResidue]
  rw [lowFirst, List.foldl_cons, List.foldl_cons, List.foldl_nil, hlow, crcByte_eq, high_complement, ← hconst]
  congr 1
  rw [BitVec.xor_comm _ (crcShifts _), BitVec.xor_assoc, ← BitVec.xor_assoc _ _ (0x00FF : Word), BitVec.xor_self,
    BitVec.zero_xor]

/-- Settles O55: the two appended bytes turn any state of the checksum into the residue. -/
theorem checksummedBytesLeaveTheResidue : Obligations.ChecksummedBytesLeaveTheResidue := fun bytes =>
  (crc16_append bytes _).trans (crcByte_complement (crc16 bytes))

theorem crc16_buildFrame (h : Header) (payload : List Byte) : crc16 (buildFrame h payload) = crcResidue :=
  checksummedBytesLeaveTheResidue (frameBody h payload)

/-! ### A built frame -/

/-- What a well-formed set says of the message lengths where the link layer is in use (00_scope.md R11 item 13). -/
theorem linkLayer_facts {p : Params} (h : p.wf = true) (hl : p.linkLayer = true) :
    p.messageMin = 1 + p.headerSize + 2 ∧ p.messageMax = 1 + p.headerSize + p.payloadMax + 2 := by
  have hc : p.linkLayerOk = true := by simp_all [Params.wf]
  exact of_decide_eq_true hc hl

theorem length_frameBody (h : Header) (payload : List Byte) : (frameBody h payload).length = 6 + payload.length := by
  simp [frameBody, lowFirst]
  omega

theorem length_buildFrame (h : Header) (payload : List Byte) : (buildFrame h payload).length = 8 + payload.length := by
  simp [buildFrame, length_frameBody, lowFirst]
  omega

/-- The first byte of a frame is its length, where a byte holds it (R202, log 19). -/
theorem getD_zero_buildFrame (h : Header) (payload : List Byte) (hlen : payload.length < 248) :
    ((buildFrame h payload).getD 0 0).toNat = (buildFrame h payload).length := by
  have hfirst : (buildFrame h payload).getD 0 0 = BitVec.ofNat 8 (1 + 5 + payload.length + 2) := rfl
  rw [hfirst, length_buildFrame, BitVec.toNat_ofNat]
  omega

/-- Two symbols a byte (30_encoding.md R102). -/
theorem length_symbolsOf (p : Params) (bytes : List Byte) : (symbolsOf p bytes).length = 2 * bytes.length := by
  induction bytes with
  | nil => rfl
  | cons b bytes ih =>
    rw [symbolsOf, List.flatMap_cons, List.length_append, ← symbolsOf, ih, List.length_cons]
    simp [symbolPair]
    omega

theorem length_expandFrame (p : Params) (frame : List Byte) :
    (expandFrame p frame).length = p.preamble.length + 2 * frame.length := by
  rw [expandFrame, List.length_append, length_symbolsOf]

/-- Settles O54: the lengths of the parts add up, and R11 items 12 and 13 bound them. -/
theorem messageFitsTheSymbolBuffer : Obligations.MessageFitsTheSymbolBuffer := by
  intro p h payload hp hlink hheader hlen
  obtain ⟨hmin, hmax⟩ := linkLayer_facts hp hlink
  have hf := Params.facts hp
  have hbuf := hf.message_fits
  have hcap := hf.messageMax_le
  have hcap' := hf.rxBufCap_le
  have hframe := length_buildFrame h payload
  have hexpand := length_expandFrame p (buildFrame h payload)
  rw [Params.preambleMax] at hbuf
  exact ⟨by omega, by omega, by omega, getD_zero_buildFrame h payload (by omega), hexpand, by omega⟩

/-- A 16-bit field sent low byte first is put together again (20_memory.md R61). -/
theorem place_extract (w : Word) : place (w.extractLsb' 8 8) 8 ||| place (w.extractLsb' 0 8) 0 = w := by
  ext i hi
  rw [← BitVec.getLsbD_eq_getElem, BitVec.getLsbD_or, getLsbD_place, getLsbD_place]
  interval_cases i <;> simp

/-- The address filter on a built frame looks at the header's network and destination (R207). -/
theorem addressMatches_buildFrame (h : Header) (payload : List Byte) (network : Word) (device broadcast : Byte) :
    addressMatches network device broadcast (buildFrame h payload) = true ↔
      h.network = network ∧ (h.dest = device ∨ h.dest = broadcast) := by
  have hfields : addressMatches network device broadcast (buildFrame h payload) =
      ((place (h.network.extractLsb' 8 8) 8 ||| place (h.network.extractLsb' 0 8) 0 == network) &&
        (h.dest == device || h.dest == broadcast)) := rfl
  rw [hfields, place_extract]
  simp

/-- Without its checksum a built frame is its body, and past the six bytes of length and header that is the payload. -/
theorem payload_of_buildFrame (h : Header) (payload : List Byte) :
    ((buildFrame h payload).take ((buildFrame h payload).length - 2)).drop 6 = payload := by
  have hbody : (buildFrame h payload).length - 2 = (frameBody h payload).length := by
    rw [length_buildFrame, length_frameBody]
    omega
  rw [hbody, buildFrame, List.take_left]
  rfl

/-- Settles O56: the checksum holds, and the address filter decides. -/
theorem builtFrameIsReceivedByItsAddresseeOnly : Obligations.BuiltFrameIsReceivedByItsAddresseeOnly := by
  intro h payload network device broadcast
  rw [checkFrame, if_neg (not_not.2 (crc16_buildFrame h payload))]
  refine ⟨fun haddr => ?_, fun haddr => ?_⟩
  · rw [(addressMatches_buildFrame ..).2 haddr, payload_of_buildFrame]
    rfl
  · rw [eq_false_of_ne_true (mt (addressMatches_buildFrame ..).1 haddr)]
    rfl

/-! ### A flipped bit -/

/-- The same bytes from different states of the checksum lead to different ones. -/
theorem foldl_crcByte_injective (bytes : List Byte) : Function.Injective fun c => bytes.foldl crcByte c := by
  induction bytes with
  | nil => exact Function.injective_id
  | cons b bytes ih =>
    exact ih.comp (crcShifts_injective.comp fun c d h => (BitVec.xor_left_inj _).1 h)

/-- Different bytes from one state of the checksum lead to different ones. -/
theorem crcByte_injective (c : Word) : Function.Injective (crcByte c) := fun a b h => by
  have hwide : a.setWidth 16 = b.setWidth 16 := (BitVec.xor_right_inj _).1 (crcShifts_injective h)
  simpa using congrArg (BitVec.setWidth 8) hwide

/-- One flipped bit of one byte changes the checksum (R212). -/
theorem crc16_flipBit_ne {bytes : List Byte} {i j : Nat} (hi : i < bytes.length) (hj : j < 8) :
    crc16 (flipBit bytes i j) ≠ crc16 bytes := by
  intro h
  have hflip : flipBit bytes i j = bytes.take i ++ (bytes[i] ^^^ (1 : Byte) <<< j) :: bytes.drop (i + 1) :=
    List.modify_eq_take_cons_drop hi
  have hsame : crc16 bytes = crc16 (bytes.take i ++ bytes[i] :: bytes.drop (i + 1)) := by simp
  rw [hflip, hsame, crc16_append, crc16_append] at h
  have hbyte := crcByte_injective _ (foldl_crcByte_injective _ h)
  have hmask : (1 : Byte) <<< j = 0 := by simpa using (BitVec.xor_eq_zero_iff.2 hbyte.symm)
  interval_cases j <;> simp at hmask

/-- A list with another checksum than a built frame's fails the first check of `recv` (R206). -/
theorem checkFrame_of_crc_ne {bytes : List Byte} (h : crc16 bytes ≠ crcResidue) (network : Word)
    (device broadcast : Byte) : checkFrame network device broadcast bytes = .checksumMismatch := if_pos h

/-- A built frame with one bit flipped fails the checksum at every address (R212). -/
theorem checkFrame_flipBit (h : Header) (payload : List Byte) {i j : Nat} (hi : i < (buildFrame h payload).length)
    (hj : j < 8) (network : Word) (device broadcast : Byte) :
    checkFrame network device broadcast (flipBit (buildFrame h payload) i j) = .checksumMismatch :=
  checkFrame_of_crc_ne (fun hcrc => crc16_flipBit_ne hi hj (hcrc.trans (crc16_buildFrame h payload).symm)) _ _ _

end Sys2Proof.Machine
end

section
/-! The Timing Configurator (46_link_layer_contract.md R209): the running maximum takes the last of the candidates with the
largest reload value that fits, and the candidates come in falling order of the prescaler. -/

namespace Sys2Proof.Machine

/-! ### The running maximum -/

theorem reloadFits_iff {counterMax : Nat} {c : TimerSetting} :
    reloadFits counterMax c = true ↔ 1 ≤ c.reload ∧ c.reload ≤ counterMax := decide_eq_true_iff

/-- A candidate's reload value is 0 or exceeds the counter exactly if it does not fit. -/
theorem not_reloadFits_iff {counterMax : Nat} {c : TimerSetting} :
    ¬reloadFits counterMax c = true ↔ c.reload = 0 ∨ counterMax < c.reload := by
  rw [reloadFits_iff]
  omega

/-- What the choice from a list is: `b` is one of the list, fits, and none that fits has a larger reload value. -/
structure IsChoice (counterMax : Nat) (l : List TimerSetting) (b : TimerSetting) : Prop where
  mem : b ∈ l
  fits : reloadFits counterMax b = true
  largest : ∀ d ∈ l, reloadFits counterMax d = true → d.reload ≤ b.reload

theorem chooseSetting_cons_of_none {counterMax : Nat} {l : List TimerSetting} (h : chooseSetting counterMax l = none)
    (c : TimerSetting) : chooseSetting counterMax (c :: l) = if reloadFits counterMax c then some c else none := by
  rw [chooseSetting, h]

theorem chooseSetting_cons_of_some {counterMax : Nat} {l : List TimerSetting} {b : TimerSetting}
    (h : chooseSetting counterMax l = some b) (c : TimerSetting) : chooseSetting counterMax (c :: l) =
      if reloadFits counterMax c ∧ b.reload < c.reload then some c else some b := by
  rw [chooseSetting, h]

/-- The choice fails if nothing fits, and else is one with the largest reload value that fits. -/
theorem chooseSetting_spec (counterMax : Nat) (l : List TimerSetting) :
    (chooseSetting counterMax l = none ∧ ∀ c ∈ l, ¬reloadFits counterMax c = true) ∨
    ∃ b, chooseSetting counterMax l = some b ∧ IsChoice counterMax l b := by
  induction l with
  | nil => exact .inl ⟨rfl, fun c hc => absurd hc List.not_mem_nil⟩
  | cons c l ih =>
    obtain ⟨hnone, hno⟩ | ⟨b, hsome, hb⟩ := ih
    · rw [chooseSetting_cons_of_none hnone]
      by_cases hc : reloadFits counterMax c = true
      · refine .inr ⟨c, if_pos hc, List.mem_cons_self, hc, fun d hd hfits => ?_⟩
        rcases List.mem_cons.1 hd with rfl | hd
        · exact le_rfl
        · exact absurd hfits (hno d hd)
      · exact .inl ⟨if_neg hc, List.forall_mem_cons.2 ⟨hc, hno⟩⟩
    · rw [chooseSetting_cons_of_some hsome]
      by_cases hc : reloadFits counterMax c = true ∧ b.reload < c.reload
      · refine .inr ⟨c, if_pos hc, List.mem_cons_self, hc.1, fun d hd hfits => ?_⟩
        rcases List.mem_cons.1 hd with rfl | hd
        · exact le_rfl
        · exact (hb.largest d hd hfits).trans hc.2.le
      · refine .inr ⟨b, if_neg hc, List.mem_cons_of_mem c hb.mem, hb.fits, fun d hd hfits => ?_⟩
        rcases List.mem_cons.1 hd with rfl | hd
        · exact not_lt.1 fun hlt => hc ⟨hfits, hlt⟩
        · exact hb.largest d hd hfits

theorem chooseSetting_eq_none {counterMax : Nat} {l : List TimerSetting} :
    chooseSetting counterMax l = none ↔ ∀ c ∈ l, ¬reloadFits counterMax c = true := by
  obtain ⟨hnone, hno⟩ | ⟨b, hsome, hb⟩ := chooseSetting_spec counterMax l
  · exact ⟨fun _ => hno, fun _ => hnone⟩
  · rw [hsome]
    exact ⟨fun h => absurd h (Option.some_ne_none b), fun hno => absurd hb.fits (hno b hb.mem)⟩

theorem isChoice_of_chooseSetting {counterMax : Nat} {l : List TimerSetting} {b : TimerSetting}
    (h : chooseSetting counterMax l = some b) : IsChoice counterMax l b := by
  obtain ⟨hnone, -⟩ | ⟨c, hsome, hc⟩ := chooseSetting_spec counterMax l
  · cases h.symm.trans hnone
  · cases h.symm.trans hsome
    exact hc

/-- From candidates in falling order of the prescaler, of equal reload values the smaller prescaler's is taken (log 17). -/
theorem prescaler_le_of_tie {counterMax : Nat} {l : List TimerSetting} {b d : TimerSetting}
    (hl : l.Pairwise fun c e => e.prescaler ≤ c.prescaler) (h : chooseSetting counterMax l = some b) (hd : d ∈ l)
    (htie : d.reload = b.reload) : b.prescaler ≤ d.prescaler := by
  have hfits : reloadFits counterMax d = true := by
    rw [reloadFits_iff, htie]
    exact reloadFits_iff.1 (isChoice_of_chooseSetting h).fits
  induction l generalizing b with
  | nil => cases h
  | cons c l ih =>
    rw [List.pairwise_cons] at hl
    obtain ⟨hfirst, hl⟩ := hl
    cases hrest : chooseSetting counterMax l with
    | none =>
      rw [chooseSetting_cons_of_none hrest] at h
      rcases List.mem_cons.1 hd with rfl | hd
      · rw [if_pos hfits] at h
        cases h
        exact le_rfl
      · exact absurd hfits (chooseSetting_eq_none.1 hrest d hd)
    | some a =>
      have ha := isChoice_of_chooseSetting hrest
      rw [chooseSetting_cons_of_some hrest] at h
      rcases List.mem_cons.1 hd with rfl | hd
      · split at h <;> cases h
        · exact le_rfl
        · exact hfirst b ha.mem
      · split at h <;> cases h
        next hc => exact absurd (ha.largest d hd hfits) (not_le.2 (htie ▸ hc.2))
        next => exact ih hl hrest hd htie

/-! ### The candidates -/

section

variable {round : Nat → Nat → Nat} {hw : Timer} {oversampling bitRate : Nat}

theorem timerCandidate_eq_some {q : Nat} {c : TimerSetting} : timerCandidate round hw oversampling bitRate q = some c ↔
    q * (bitRate * oversampling) ≠ 0 ∧ c = ⟨q, round hw.clock (q * (bitRate * oversampling))⟩ := by
  unfold timerCandidate tickDivisor
  split <;> simp_all [eq_comm]

/-- The candidates are the prescalers of the table that divide at all, each with its rounded reload value (R209). -/
theorem mem_timerCandidates {c : TimerSetting} : c ∈ timerCandidates round hw oversampling bitRate ↔
    c.prescaler ∈ hw.prescalers ∧ c.prescaler * (bitRate * oversampling) ≠ 0 ∧
      c.reload = round hw.clock (c.prescaler * (bitRate * oversampling)) := by
  simp only [timerCandidates, List.mem_filterMap, List.mem_insertionSort, timerCandidate_eq_some]
  constructor
  · rintro ⟨q, hq, hne, rfl⟩
    exact ⟨hq, hne, rfl⟩
  · rintro ⟨hq, hne, hreload⟩
    exact ⟨c.prescaler, hq, hne, by rw [← hreload]⟩

/-- The candidates come in falling order of the prescaler (R209). -/
theorem timerCandidates_falling (round : Nat → Nat → Nat) (hw : Timer) (oversampling bitRate : Nat) :
    (timerCandidates round hw oversampling bitRate).Pairwise fun c e => e.prescaler ≤ c.prescaler := by
  refine (List.pairwise_insertionSort (· ≥ ·) hw.prescalers).filterMap _ fun p q hpq c hc e he => ?_
  obtain ⟨-, rfl⟩ := timerCandidate_eq_some.1 hc
  obtain ⟨-, rfl⟩ := timerCandidate_eq_some.1 he
  exact hpq

/-- The Timing Configurator fails exactly if every prescaler of the table has no reload value or one that does not fit. -/
theorem configureTimer_eq_none : configureTimer round hw oversampling bitRate = none ↔
    ∀ q ∈ hw.prescalers, q * (bitRate * oversampling) = 0 ∨ round hw.clock (q * (bitRate * oversampling)) = 0 ∨
      2 ^ hw.counterBits - 1 < round hw.clock (q * (bitRate * oversampling)) := by
  rw [configureTimer, chooseSetting_eq_none]
  constructor
  · intro h q hq
    rw [or_iff_not_imp_left]
    intro hne
    exact not_reloadFits_iff.1 (h ⟨q, _⟩ (mem_timerCandidates.2 ⟨hq, hne, rfl⟩))
  · intro h c hc
    obtain ⟨hq, hne, hreload⟩ := mem_timerCandidates.1 hc
    rw [not_reloadFits_iff, hreload]
    exact (h _ hq).resolve_left hne

variable {c : TimerSetting} (h : configureTimer round hw oversampling bitRate = some c)

include h

/-- What the Timing Configurator takes is a candidate that fits the counter (R209). -/
theorem mem_of_configureTimer : c ∈ timerCandidates round hw oversampling bitRate ∧ 1 ≤ c.reload ∧
    c.reload ≤ 2 ^ hw.counterBits - 1 := by
  have hc := isChoice_of_chooseSetting h
  exact ⟨hc.mem, reloadFits_iff.1 hc.fits⟩

variable {q : Nat} (hq : q ∈ hw.prescalers) (hpos : 0 < q)
  (hfits : round hw.clock (q * (bitRate * oversampling)) ≤ 2 ^ hw.counterBits - 1)

include hq hpos

/-- Another prescaler of the table is a candidate too, the bit rate and oversampling factor being positive. -/
theorem candidate_of_configureTimer :
    ⟨q, round hw.clock (q * (bitRate * oversampling))⟩ ∈ timerCandidates round hw oversampling bitRate := by
  obtain ⟨-, hne, -⟩ := mem_timerCandidates.1 (mem_of_configureTimer h).1
  exact mem_timerCandidates.2 ⟨hq, Nat.mul_ne_zero hpos.ne' (Nat.ne_zero_of_mul_ne_zero_right hne), rfl⟩

include hfits

/-- No prescaler has a larger reload value that fits (R209). -/
theorem reload_le_of_configureTimer : round hw.clock (q * (bitRate * oversampling)) ≤ c.reload := by
  rcases Nat.eq_zero_or_pos (round hw.clock (q * (bitRate * oversampling))) with hzero | hone
  · exact hzero ▸ Nat.zero_le _
  · exact (isChoice_of_chooseSetting h).largest _ (candidate_of_configureTimer h hq hpos)
      (reloadFits_iff.2 ⟨hone, hfits⟩)

/-- With a rounding that never grows with the divisor the smallest prescaler that fits is taken (R209). -/
theorem prescaler_le_of_configureTimer
    (hround : ∀ d e, 0 < d → d ≤ e → round hw.clock e ≤ round hw.clock d) : c.prescaler ≤ q := by
  obtain ⟨-, hne, hreload⟩ := mem_timerCandidates.1 (mem_of_configureTimer h).1
  by_contra hlt
  have hrate : 0 < bitRate * oversampling := Nat.pos_of_ne_zero (Nat.ne_zero_of_mul_ne_zero_right hne)
  have hgrow := hround _ _ (Nat.mul_pos hpos hrate) (Nat.mul_le_mul_right _ (not_le.1 hlt).le)
  have htie := Nat.le_antisymm (reload_le_of_configureTimer h hq hpos hfits) (hreload ▸ hgrow)
  exact hlt (prescaler_le_of_tie (timerCandidates_falling ..) h (candidate_of_configureTimer h hq hpos) htie)

end

/-- A quotient rounded down never grows with the divisor. -/
theorem div_antitone (n : Nat) (d e : Nat) (hd : 0 < d) (hde : d ≤ e) : n / e ≤ n / d := Nat.div_le_div_left hde hd

/-- With the quotient rounded down and prescalers that divide one another, the period is the nearest to the one asked for
that a fitting candidate makes (R212). -/
theorem period_le_of_configureTimer {hw : Timer} {oversampling bitRate : Nat} {c : TimerSetting}
    (h : configureTimer (· / ·) hw oversampling bitRate = some c) {q : Nat} (hq : q ∈ hw.prescalers) (hpos : 0 < q)
    (hfits : hw.clock / (q * (bitRate * oversampling)) ≤ 2 ^ hw.counterBits - 1)
    (hchain : ∀ x ∈ hw.prescalers, ∀ y ∈ hw.prescalers, x ∣ y ∨ y ∣ x) :
    q * (hw.clock / (q * (bitRate * oversampling))) ≤ c.prescaler * c.reload := by
  obtain ⟨hc, hne, hreload⟩ := mem_timerCandidates.1 (mem_of_configureTimer h).1
  have hle : c.prescaler ≤ q := prescaler_le_of_configureTimer h hq hpos hfits (div_antitone hw.clock)
  have hdvd : c.prescaler ∣ q := by
    rcases hchain _ hc q hq with hdvd | hdvd
    · exact hdvd
    · have hcpos : 0 < c.prescaler := Nat.pos_of_ne_zero (Nat.ne_zero_of_mul_ne_zero_left hne)
      rw [Nat.le_antisymm hle (Nat.le_of_dvd hcpos hdvd)]
  obtain ⟨m, rfl⟩ := hdvd
  rw [hreload, Nat.mul_right_comm c.prescaler m (bitRate * oversampling), ← Nat.div_div_eq_div_mul, Nat.mul_assoc]
  exact Nat.mul_le_mul_left _ (Nat.mul_div_le _ _)

/-- Settles O60: the choice from any list, and what the list of the candidates makes of it. -/
theorem largestFittingReloadIsChosen : Obligations.LargestFittingReloadIsChosen := by
  refine ⟨fun counterMax l => ⟨?_, fun c hc => ?_⟩, fun round hw oversampling bitRate => ⟨configureTimer_eq_none, ?_⟩⟩
  · simp only [chooseSetting_eq_none, not_reloadFits_iff]
  · have hchoice := isChoice_of_chooseSetting hc
    obtain ⟨hone, hmax⟩ := reloadFits_iff.1 hchoice.fits
    refine ⟨hchoice.mem, hone, hmax, fun d hd hfits => ?_⟩
    rcases Nat.eq_zero_or_pos d.reload with hzero | hpos
    · exact hzero ▸ Nat.zero_le _
    · exact hchoice.largest d hd (reloadFits_iff.2 ⟨hpos, hfits⟩)
  · intro c hc
    obtain ⟨hmem, hone, hmax⟩ := mem_of_configureTimer hc
    obtain ⟨htable, -, hreload⟩ := mem_timerCandidates.1 hmem
    refine ⟨htable, hreload, hone, hmax, fun q hq hpos hfits => ⟨reload_le_of_configureTimer hc hq hpos hfits,
      prescaler_le_of_configureTimer hc hq hpos hfits, ?_⟩, ?_⟩
    · rintro rfl hchain
      exact period_le_of_configureTimer hc hq hpos hfits hchain
    · rintro rfl
      rw [hreload, Nat.mul_right_comm]
      exact Nat.mul_div_le _ _

end Sys2Proof.Machine
end

section
/-! `LOAD` (30_encoding.md R106, 43_host_tx_commands.md R180, R181): pushes after `TX_CLEAR` fill the symbol buffer with
their entries, and ticks that fall among them do to the receiver what they would have done alone (20_memory.md R70, R75). -/

namespace Sys2Proof.Machine

namespace State

variable {s t u : State}

/-! ### Receivers that agree -/

theorem SameReceiver.refl (s : State) : s.SameReceiver s := ⟨rfl, rfl, s.sameReceiveGroup_refl⟩

theorem SameReceiveGroup.trans (h : s.SameReceiveGroup t) (h' : t.SameReceiveGroup u) : s.SameReceiveGroup u := by
  simp_all [SameReceiveGroup]

theorem SameReceiver.trans (h : s.SameReceiver t) (h' : t.SameReceiver u) : s.SameReceiver u := by
  obtain ⟨hparams, hdraws, hgroup⟩ := h
  obtain ⟨hparams', hdraws', hgroup'⟩ := h'
  exact ⟨hparams'.trans hparams, hdraws'.trans hdraws, hgroup.trans hgroup'⟩

/-- Two idle transmitters gate the receivers that agree alike. -/
theorem SameReceiver.rxRuns_of_idle (h : s.SameReceiver t) (hs : s.txActive = false) (ht : t.txActive = false) :
    t.rxRuns t.txActive = s.rxRuns s.txActive := by
  obtain ⟨hparams, -, he, -⟩ := h
  rw [rxRuns, rxRuns, hparams, he, hs, ht]

/-! ### An idle transmitter along ticks -/

/-- A tick keeps an idle transmitter's group (41_tick_tx.md R151). -/
theorem sameTransmitGroup_of_idle_tick {x : Bool} (hidle : s.txActive = false) (h : exec (.tick x) s = .next t) :
    s.SameTransmitGroup t := execTick_sameTransmitGroup h (txHalf_of_idle hidle)

/-- Ticks of two idle transmitters whose receivers agree lead to such again, and keep both idle. -/
theorem Inv.runTicks_sameReceiver (hs : s.Inv) (ht : t.Inv) (h : s.SameReceiver t) (hsidle : s.txActive = false)
    (htidle : t.txActive = false) (xs : List Bool) :
    ∃ v w, Machine.runTicks xs s = .next v ∧ Machine.runTicks xs t = .next w ∧ v.SameReceiver w ∧ v.Inv ∧ w.Inv ∧
      v.txActive = false ∧ w.txActive = false := by
  induction xs generalizing s t with
  | nil => exact ⟨s, t, rfl, rfl, h, hs, ht, hsidle, htidle⟩
  | cons x xs ih =>
    obtain ⟨s', hs', hsinv⟩ := hs.exec_tick x
    obtain ⟨t', ht', htinv⟩ := ht.exec_tick x
    obtain ⟨hs0, -⟩ := sameTransmitGroup_of_idle_tick hsidle hs'
    obtain ⟨ht0, -⟩ := sameTransmitGroup_of_idle_tick htidle ht'
    rw [runTicks_cons, runTicks_cons, hs', ht']
    exact ih hsinv htinv (execTick_sameReceiver h (h.rxRuns_of_idle hsidle htidle) hs' ht') (hs0.trans hsidle)
      (ht0.trans htidle)

/-- Ticks keep the parameters (10_state.md R55). -/
theorem params_of_runTicks {xs : List Bool} (h : runTicks xs s = .next t) : t.params = s.params := by
  induction xs generalizing s with
  | nil =>
    cases h
    rfl
  | cons x xs ih =>
    obtain ⟨u, hu, h⟩ := andThen_eq_next.1 h
    exact (ih h).trans (tickFrame s u x hu).1

/-- The gaps of `k + 1` commands are the first one and those of the other `k`; a gap not named is empty (log 18). -/
theorem flatten_take_succ (gaps : List (List Bool)) (k : Nat) :
    (gaps.take (k + 1)).flatten = gaps.headD [] ++ (gaps.tail.take k).flatten := by
  cases gaps <;> simp

/-! ### A symbol buffer being loaded -/

/-- Under parameters `p` the idle transmitter's symbol buffer holds exactly these entries, and the last command was
answered `OK`. -/
structure Loaded (p : Params) (entries : List Byte) (t : State) : Prop where
  params : t.params = p
  idle : t.txActive = false
  txLen : t.txLen.toNat = entries.length
  txIndex : t.txIndex = 0
  resp : t.resp = some ⟨.ok, 0⟩
  bytes : ∀ k (h : k < entries.length), t.byteAt .tx k = entries[k]

variable {p : Params} {entries more : List Byte}

/-- `TX_CLEAR` leaves no entry (R180). -/
theorem loaded_nil (hidle : s.txActive = false) : Loaded s.params [] (s.emptyTx.respond .ok 0) :=
  ⟨rfl, hidle, rfl, rfl, rfl, fun _ h => absurd h (Nat.not_lt_zero _)⟩

/-- `TX_PUSH` adds its entry at the end (R181). -/
theorem Loaded.push (h : Loaded p entries t) (hp : p.wf = true) (e : Byte) (hroom : entries.length < p.txBufCap) :
    exec (.txPush e) t = .next ((t.appendTx e).respond .ok 0) ∧
      Loaded p (entries ++ [e]) ((t.appendTx e).respond .ok 0) := by
  obtain rfl := h.params
  have hroom' : t.txLen.toNat < t.params.txBufCap := h.txLen ▸ hroom
  refine ⟨exec_txPush_room hp e h.idle hroom', rfl, h.idle, ?_, h.txIndex, rfl, fun k hk => ?_⟩
  · rw [List.length_append, List.length_singleton, ← h.txLen]
    exact toNat_appendTx_txLen hp e hroom'
  · rw [byteAt_respond, byteAt_appendTx, h.txLen]
    split
    next heq => simp [heq]
    next hne =>
      have hlt : k < entries.length := by
        rw [List.length_append, List.length_singleton] at hk
        omega
      rw [h.bytes k hlt, List.getElem_append_left hlt]

/-- A tick leaves a loaded buffer (20_memory.md R75). -/
theorem Loaded.tick {x : Bool} (h : Loaded p entries s) (ht : exec (.tick x) s = .next t) : Loaded p entries t := by
  obtain ⟨hparams, -, hlen, hbytes, hresp, -⟩ := tickFrame s t x ht
  obtain ⟨hactive, -, -, hindex, -⟩ := sameTransmitGroup_of_idle_tick h.idle ht
  exact ⟨hparams.trans h.params, hactive.trans h.idle, hlen ▸ h.txLen, hindex.trans h.txIndex, hresp.trans h.resp,
    fun k hk => (hbytes k).trans (h.bytes k hk)⟩

theorem Loaded.runTicks {xs : List Bool} (h : Loaded p entries s) (ht : Machine.runTicks xs s = .next t) :
    Loaded p entries t := by
  induction xs generalizing s with
  | nil =>
    cases ht
    exact h
  | cons x xs ih =>
    obtain ⟨u, hu, ht⟩ := andThen_eq_next.1 ht
    exact ih (h.tick hu) ht

/-- Pushes in a row add their entries and leave the receiver alone. -/
theorem Loaded.pushes (h : Loaded p entries t) (hp : p.wf = true) (hroom : entries.length + more.length ≤ p.txBufCap) :
    ∃ u, runOps (more.map .txPush) t = .next u ∧ Loaded p (entries ++ more) u ∧ t.SameReceiveGroup u := by
  induction more generalizing entries t with
  | nil => exact ⟨t, rfl, by simpa using h, t.sameReceiveGroup_refl⟩
  | cons e more ih =>
    rw [List.length_cons] at hroom
    obtain ⟨hpush, hl⟩ := h.push hp e (by omega)
    obtain ⟨u, hu, hl', hsame⟩ := ih hl (by rw [List.length_append, List.length_singleton]; omega)
    refine ⟨u, ?_, by simpa using hl', hsame⟩
    rw [List.map_cons, runOps_cons, hpush]
    exact hu

/-- Pushes with ticks among them add their entries, and the ticks do to the receiver what they do alone, to an idle state
`s` whose receiver agrees. -/
theorem Loaded.pushes_spaced (h : Loaded p entries t) (hp : p.wf = true) (ht : t.Inv) (hs : s.Inv)
    (hidle : s.txActive = false) (hsame : s.SameReceiver t) (hroom : entries.length + more.length ≤ p.txBufCap)
    (gaps : List (List Bool)) :
    ∃ u v, runSpaced (more.map .txPush) gaps t = .next u ∧ u.Inv ∧ Loaded p (entries ++ more) u ∧
      Machine.runTicks (gaps.take more.length).flatten s = .next v ∧ v.SameReceiver u := by
  induction more generalizing entries s t gaps with
  | nil => exact ⟨t, s, rfl, ht, by simpa using h, rfl, hsame⟩
  | cons e more ih =>
    rw [List.length_cons] at hroom
    obtain ⟨s', t', hs', ht', hsame', hsinv, htinv, hidle', -⟩ :=
      hs.runTicks_sameReceiver ht hsame hidle h.idle (gaps.headD [])
    obtain ⟨hpush, hl⟩ := (h.runTicks ht').push hp e (by omega)
    obtain ⟨u, v, hu, huinv, hl', hv, hsame''⟩ := ih hl (htinv.of_exec hpush) hsinv hidle'
      (hsame'.trans ⟨rfl, rfl, t'.sameReceiveGroup_refl⟩) (by rw [List.length_append, List.length_singleton]; omega)
      gaps.tail
    refine ⟨u, v, ?_, huinv, by simpa using hl', ?_, hsame''⟩
    · rw [List.map_cons, runSpaced_cons, issue, ht', andThen_next, hpush]
      exact hu
    · rw [List.length_cons, flatten_take_succ, runTicks_append, hs']
      exact hv

/-- `LOAD` under the invariants, with ticks among its commands. -/
theorem Inv.load_spaced (hs : s.Inv) (hidle : s.txActive = false) (hroom : entries.length ≤ s.params.txBufCap)
    (gaps : List (List Bool)) :
    ∃ u v, Machine.runSpaced (loadOps entries) gaps s = .next u ∧ u.Inv ∧ Loaded s.params entries u ∧
      Machine.runTicks (gaps.take (entries.length + 1)).flatten s = .next v ∧ v.SameReceiver u := by
  obtain ⟨t, t', ht, ht', hsame, hinv, -, hidle', -⟩ := hs.runTicks_sameReceiver hs (.refl s) hidle hidle (gaps.headD [])
  cases ht.symm.trans ht'
  have hclear := exec_txClear_idle hinv.params_wf hidle'
  have hparams : t.params = s.params := params_of_runTicks ht
  obtain ⟨u, v, hu, huinv, hl, hv, hsame'⟩ := (loaded_nil hidle').pushes_spaced hinv.params_wf (hinv.of_exec hclear) hinv
    hidle' ⟨rfl, rfl, t.sameReceiveGroup_refl⟩ (by simpa [hparams] using hroom) gaps.tail
  refine ⟨u, v, ?_, huinv, by simpa [hparams] using hl, ?_, hsame'⟩
  · rw [loadOps, runSpaced_cons, Machine.issue, ht, andThen_next, hclear]
    exact hu
  · rw [flatten_take_succ, runTicks_append, ht]
    exact hv

end State

/-- Settles O53: pushes in a row, and pushes with ticks among them, from the state that `TX_CLEAR` leaves. -/
theorem loadFillsTheSymbolBuffer : Obligations.LoadFillsTheSymbolBuffer := by
  refine ⟨fun s entries hs hidle hroom => ?_, fun s entries gaps hs hidle hroom => ?_⟩
  · obtain ⟨u, hu, hl, hsame⟩ := (State.loaded_nil hidle).pushes hs (by simpa using hroom)
    refine ⟨u, ?_, hl.txLen, hl.txIndex, hl.resp, hl.bytes, hsame⟩
    rw [loadOps, runOps_cons, exec_txClear_idle hs hidle]
    exact hu
  · obtain ⟨u, v, hu, hinv, hl, hv, hsame⟩ := hs.load_spaced hidle hroom gaps
    exact ⟨u, v, hu, hinv, hl.idle, hl.txLen, hl.txIndex, hl.resp, hl.bytes, hv, hsame.2.2⟩

end Sys2Proof.Machine
end

section
/-! The host's driver (30_encoding.md R106, 42_host_rx_commands.md R174, 43_host_tx_commands.md R183,
46_link_layer_contract.md R206 to R208): one lemma per call, for every placement of ticks among its commands. -/

namespace Sys2Proof.Machine

/-! ### Waiting -/

section

variable {s : State}

/-- `WAIT_RX` polls `rx_ready` (30_encoding.md R106). -/
theorem rxWaitOver_statusWord (s : State) : rxWaitOver s.statusWord = s.rxReady := by
  obtain ⟨-, -, hready, -⟩ := s.statusWord_fields
  exact hready

/-- `WAIT_TX` polls `tx_active` (30_encoding.md R106). -/
theorem txWaitOver_statusWord (s : State) : txWaitOver s.statusWord = !s.txActive := by
  obtain ⟨-, -, -, hactive, -⟩ := s.statusWord_fields
  rw [txWaitOver, hactive]

/-- A wait that is over at once is one poll. -/
theorem waitFor_of_ready (hs : s.params.wf = true) {ready : Word → Bool} (h : ready s.statusWord = true)
    (l : List (List Bool)) : waitFor ready l s = .next (true, s.respond .ok s.statusWord) := by
  cases l with
  | nil => rw [waitFor_nil hs, h]
  | cons xs l => rw [waitFor_cons hs, if_pos h]

/-- A wait goes on and ends on what its last poll shows (30_encoding.md R106). -/
theorem State.Inv.waitFor (hs : s.Inv) (ready : Word → Bool) (l : List (List Bool)) :
    ∃ t, Machine.waitFor ready l s = .next (ready t.statusWord, t) ∧ t.Inv ∧ t.resp = some ⟨.ok, t.statusWord⟩ := by
  induction l generalizing s with
  | nil => exact ⟨_, waitFor_nil hs.params_wf ready, hs.respond .ok _, rfl⟩
  | cons xs l ih =>
    rw [waitFor_cons hs.params_wf]
    split
    next h => exact ⟨s.respond .ok s.statusWord, by rw [← h]; rfl, hs.respond .ok _, rfl⟩
    next =>
      obtain ⟨t, ht, hinv⟩ := (hs.respond .ok s.statusWord).runTicks xs
      rw [ht]
      exact ih hinv

/-! ### Draining -/

/-- What the ticks of these gaps cannot disturb: there are none, the receiver is off, or the frame is held (20_memory.md
R74, 70_reset_and_hazards.md R270). -/
def FrameSafe (gaps : List (List Bool)) (s : State) : Prop :=
  gaps = [] ∨ s.rxEnabled = false ∨ s.params.rxOverrun = .hold ∧ s.rxReady = true

/-- With the receiver off, or the frame held, a tick keeps both the frame and that. -/
theorem State.Inv.frameSafe_tick {t : State} {x : Bool} (hs : s.Inv)
    (h : s.rxEnabled = false ∨ s.params.rxOverrun = .hold ∧ s.rxReady = true) (ht : Machine.exec (.tick x) s = .next t) :
    s.FrameKept t ∧ (t.rxEnabled = false ∨ t.params.rxOverrun = .hold ∧ t.rxReady = true) := by
  obtain ⟨hparams, henabled, -⟩ := tickFrame s t x ht
  rcases h with hoff | ⟨hhold, hready⟩
  · obtain ⟨-, hkept⟩ := receiveHalfRunsOnlyWhenEnabledAndUngated s t x ht
    obtain ⟨-, -, hready, -, -, -, -, -, hlen, hexp, hbytes⟩ := hkept (State.not_receiverRuns_of_disabled hoff)
    exact ⟨⟨hparams, hready, hlen, hexp, hbytes⟩, .inl (henabled.trans hoff)⟩
  · have hkept := hs.frameKept_tick hhold hready ht
    exact ⟨hkept, .inr ⟨hparams ▸ hhold, hkept.ready.trans hready⟩⟩

theorem State.Inv.frameSafe_runTicks {t : State} {xs : List Bool} (hs : s.Inv)
    (h : s.rxEnabled = false ∨ s.params.rxOverrun = .hold ∧ s.rxReady = true) (ht : Machine.runTicks xs s = .next t) :
    s.FrameKept t ∧ (t.rxEnabled = false ∨ t.params.rxOverrun = .hold ∧ t.rxReady = true) := by
  induction xs generalizing s with
  | nil =>
    cases ht
    exact ⟨.refl _, h⟩
  | cons x xs ih =>
    obtain ⟨u, hu, ht⟩ := andThen_eq_next.1 ht
    obtain ⟨hkept, hu'⟩ := hs.frameSafe_tick h hu
    obtain ⟨hkept', ht'⟩ := ih (hs.of_exec hu) hu' ht
    exact ⟨hkept.trans hkept', ht'⟩

/-- The ticks of the first gap keep a safe frame, and leave it safe from the other gaps. -/
theorem FrameSafe.head {gaps : List (List Bool)} {t : State} (h : FrameSafe gaps s) (hs : s.Inv)
    (ht : runTicks (gaps.headD []) s = .next t) : s.FrameKept t ∧ FrameSafe gaps.tail t := by
  rcases h with rfl | h
  · cases ht
    exact ⟨.refl _, .inl rfl⟩
  · obtain ⟨hkept, ht'⟩ := hs.frameSafe_runTicks h ht
    exact ⟨hkept, .inr ht'⟩

/-- An answer keeps the frame. -/
theorem State.FrameKept.respond {t : State} (h : s.FrameKept t) (c : Code) (v : Word) : s.FrameKept (t.respond c v) :=
  ⟨h.params, h.ready, h.bufLen, h.expLen, h.bytes⟩

/-- A byte widened to a response stands in its low byte (42_host_rx_commands.md R173). -/
theorem extractLsb'_setWidth_byte (b : Byte) : (b.setWidth 16).extractLsb' 0 8 = b := by
  rw [← place_zero]
  exact extractLsb'_place_same b (by decide)

/-- The gap before command `k` is the first of the gaps that are left after `k` commands. -/
theorem headD_drop (gaps : List (List Bool)) (k : Nat) : (gaps.drop k).headD [] = gaps.getD k [] := by
  rw [List.headD_eq_head?_getD, List.head?_drop, List.getD_eq_getElem?_getD]

/-- `RX_READ` of an index in range, after the ticks of its gap, answers the byte that is then there. -/
theorem State.Inv.issue_rxRead {xs : List Bool} {i : Nat} (hs : s.Inv) (hi : i < s.params.rxBufCap) :
    ∃ t, Machine.runTicks xs s = .next t ∧ t.Inv ∧
      Machine.issue xs (.rxRead (BitVec.ofNat 8 i)) s = .next (t.respond .ok ((t.byteAt .rx i).setWidth 16)) := by
  obtain ⟨t, ht, hinv⟩ := hs.runTicks xs
  have hparams := State.params_of_runTicks ht
  have hcap := (Params.facts hs.params_wf).rxBufCap_le
  have hnum : (BitVec.ofNat 8 i).toNat = i := by
    rw [BitVec.toNat_ofNat, Nat.mod_eq_of_lt (by omega)]
  have hread := exec_rxRead_byte (s := t) (i := BitVec.ofNat 8 i) hinv.params_wf (by rw [hnum, hparams]; exact hi)
  rw [hnum] at hread
  exact ⟨t, ht, hinv, by rw [Machine.issue, ht, andThen_next, hread]⟩

/-- The reads of `DRAIN` go on; where the frame is safe they give its bytes and keep it (30_encoding.md R106). -/
theorem State.Inv.readBytes (hs : s.Inv) {is : List Nat} (his : ∀ i ∈ is, i < s.params.rxBufCap)
    (gaps : List (List Bool)) :
    ∃ bytes t, Machine.readBytes is gaps s = .next (bytes, t) ∧ t.Inv ∧ bytes.length = is.length ∧
      (FrameSafe gaps s → bytes = is.map (s.byteAt .rx) ∧ s.FrameKept t ∧ FrameSafe (gaps.drop is.length) t) ∧
      (gaps = [] → ∃ q, t = s.withResp q) := by
  induction is generalizing s gaps with
  | nil => exact ⟨[], s, rfl, hs, rfl, fun h => ⟨rfl, .refl s, h⟩, fun _ => ⟨s.resp, rfl⟩⟩
  | cons i is ih =>
    obtain ⟨u, hu, huinv, hread⟩ := hs.issue_rxRead (xs := gaps.headD []) (his i (by simp))
    have hparams := State.params_of_runTicks hu
    obtain ⟨bytes, t, ht, hinv, hlen, hsafe, hnone⟩ :=
      ih (huinv.respond .ok ((u.byteAt .rx i).setWidth 16)) (fun j hj => hparams ▸ his j (by simp [hj])) gaps.tail
    refine ⟨u.byteAt .rx i :: bytes, t, ?_, hinv, by rw [List.length_cons, hlen, List.length_cons], fun h => ?_,
      fun h => ?_⟩
    · rw [Machine.readBytes, hread, andThen_next, ht, andThen_next, State.answerData_respond, extractLsb'_setWidth_byte]
    · obtain ⟨hkept, hsafe'⟩ := h.head hs hu
      obtain ⟨rfl, hkept', hrest⟩ := hsafe hsafe'
      have hsame : u.byteAt .rx = s.byteAt .rx := funext hkept.bytes
      refine ⟨?_, (hkept.respond ..).trans hkept', by rwa [List.length_cons, ← List.drop_tail]⟩
      show u.byteAt .rx i :: is.map (u.byteAt .rx) = (i :: is).map (s.byteAt .rx)
      rw [hsame, List.map_cons]
    · subst h
      cases hu
      obtain ⟨q, rfl⟩ := hnone rfl
      exact ⟨q, rfl⟩

/-- `CSR_RD 5` has `buf_len` in its low byte (10_state.md R48). -/
theorem exec_csrRd_lengths (hs : s.params.wf = true) :
    ∃ v, exec (.csrRd 5) s = .next (s.respond .ok v) ∧ v.extractLsb' 0 8 = s.bufLen :=
  ⟨_, exec_csrRd_ok hs rfl, (lengths_fields s.bufLen s.expLen).1⟩

/-- `DRAIN` goes on and clears `rx_ready`; where the frame is safe it gives its bytes and keeps them; with no tick among its
commands it does nothing else (30_encoding.md R106, 20_memory.md R74). -/
theorem State.Inv.drain (hs : s.Inv) (gaps : List (List Bool)) :
    ∃ bytes t, Machine.drain gaps s = .next (bytes, t) ∧ t.Inv ∧ t.rxReady = false ∧ t.resp = some ⟨.ok, 0⟩ ∧
      (gaps = [] → t = s.clearReady.respond .ok 0) ∧
      (FrameSafe gaps s → bytes = (List.range s.bufLen.toNat).map (s.byteAt .rx) ∧ t.bufLen = s.bufLen ∧
        ∀ i, t.byteAt .rx i = s.byteAt .rx i) := by
  obtain ⟨u, hu, huinv⟩ := hs.runTicks (gaps.headD [])
  obtain ⟨v, hv, hlength⟩ := exec_csrRd_lengths huinv.params_wf
  have hindices : ∀ i ∈ List.range u.bufLen.toNat, i < u.params.rxBufCap := fun i hi =>
    (List.mem_range.1 hi).trans_le huinv.bufLen_le_cap
  obtain ⟨bytes, w, hw, hwinv, hlen, hsafe, hnone⟩ := (huinv.respond .ok v).readBytes hindices gaps.tail
  obtain ⟨x, hx, hxinv⟩ := hwinv.runTicks (gaps.getD (bytes.length + 1) [])
  have hclear := exec_rxClear hxinv.params_wf
  refine ⟨bytes, x.clearReady.respond .ok 0, ?_, hxinv.clearReady.respond .ok 0, rfl, rfl, fun h => ?_, fun h => ?_⟩
  · rw [Machine.drain, Machine.issue, hu, andThen_next, hv, andThen_next, State.answerData_respond, hlength, hw,
      andThen_next, Machine.issue, hx, andThen_next, hclear, andThen_next]
  · subst h
    cases hu
    obtain ⟨q, rfl⟩ := hnone rfl
    cases hx
    rfl
  · obtain ⟨hkept, hsafe'⟩ := h.head hs hu
    obtain ⟨hbytes, hkept', hrest⟩ := hsafe hsafe'
    have hread : u.byteAt .rx = s.byteAt .rx := funext hkept.bytes
    rw [List.length_range, List.drop_tail] at hrest
    rw [hlen, List.length_range, ← headD_drop] at hx
    have hall := ((hkept.respond .ok v).trans hkept').trans (hrest.head hwinv hx).1
    refine ⟨?_, hall.bufLen, hall.bytes⟩
    rw [hbytes, ← hread, ← hkept.bufLen]
    rfl

/-- Reads in a row change nothing but the response. -/
theorem runOps_rxReads (hs : s.params.wf = true) (is : List Nat) :
    ∃ q, runOps (is.map fun i => .rxRead (BitVec.ofNat 8 i)) s = .next (s.withResp q) := by
  induction is generalizing s with
  | nil => exact ⟨s.resp, rfl⟩
  | cons i is ih =>
    have hread : ∃ q, exec (.rxRead (BitVec.ofNat 8 i)) s = .next (s.withResp q) := by
      rcases lt_or_ge (BitVec.ofNat 8 i).toNat s.params.rxBufCap with hi | hi
      · exact ⟨_, exec_rxRead_byte hs hi⟩
      · exact ⟨_, exec_rxRead_range hs hi⟩
    obtain ⟨q, hq⟩ := hread
    obtain ⟨r, hr⟩ := ih (s := s.withResp q) hs
    exact ⟨r, by rw [List.map_cons, runOps_cons, hq]; exact hr⟩

/-- The commands of `DRAIN` in a row clear `rx_ready` and change nothing else (30_encoding.md R106). -/
theorem runOps_drainOps (hs : s.params.wf = true) (len : Byte) :
    runOps (drainOps len) s = .next (s.clearReady.respond .ok 0) := by
  obtain ⟨v, hv, -⟩ := exec_csrRd_lengths hs
  obtain ⟨q, hq⟩ := runOps_rxReads (s := s.respond .ok v) hs (List.range len.toNat)
  have hclear := exec_rxClear (s := (s.respond .ok v).withResp q) hs
  rw [drainOps, List.cons_append, runOps_cons, hv, andThen_next, runOps_append, hq, andThen_next, runOps_cons, hclear]
  rfl

/-! ### `recv` -/

/-- What one poll of `recv` makes of the result of the checks: a frame for another address is no result
(46_link_layer_contract.md R206, R207). -/
def pollResult : Received → Option Recv
  | .checksumMismatch => some .checksumMismatch
  | .otherAddress => none
  | .message src port payload => some (.message src port payload)

variable (network : Word) (device broadcast : Byte)

/-- One poll of `recv` with a frame ready is `DRAIN` and the checks (46_link_layer_contract.md R206, R207). -/
theorem recvPoll_of_ready (hs : s.params.wf = true) (hready : s.rxReady = true) {during : List (List Bool)}
    {bytes : List Byte} {t : State} (hd : drain during (s.respond .ok s.statusWord) = .next (bytes, t)) :
    recvPoll network device broadcast during s =
      .next (pollResult (checkFrame network device broadcast bytes), t) := by
  rw [recvPoll, exec_csrRd_zero hs, andThen_next, State.answerData_respond, rxWaitOver_statusWord, if_pos hready, hd,
    andThen_next]
  cases checkFrame network device broadcast bytes <;> rfl

variable {network device broadcast}

/-- A poll that comes to a result ends `recv` with it. -/
theorem recv_of_some {during : List (List Bool)} {r : Recv} {t : State}
    (h : recvPoll network device broadcast during s = .next (some r, t)) (l : List Round) :
    recv network device broadcast during l s = .next (r, t) := by
  cases l <;> rw [recv, h] <;> rfl

/-- A poll without a result lets `recv` time out where no round is left (42_host_rx_commands.md R174). -/
theorem recv_nil_of_none {during : List (List Bool)} {t : State}
    (h : recvPoll network device broadcast during s = .next (none, t)) :
    recv network device broadcast during [] s = .next (.timeout, t) := by
  rw [recv, h]
  rfl

/-- A poll without a result lets `recv` go on with the next round. -/
theorem recv_cons_of_none {during : List (List Bool)} {t : State}
    (h : recvPoll network device broadcast during s = .next (none, t)) (next : Round) (l : List Round) :
    recv network device broadcast during (next :: l) s =
      andThen (runTicks next.before t) (recv network device broadcast next.during l) := by
  rw [recv, h]
  rfl

/-! ### `send` -/

/-- The STATUS that `send` reads after the ticks of its first gap decides (43_host_tx_commands.md R183). -/
theorem send_eq {gaps : List (List Bool)} {h : Header} {payload : List Byte} {u : State}
    (hlen : payload.length ≤ s.params.payloadMax) (hu : runTicks (gaps.headD []) s = .next u)
    (hw : u.params.wf = true) : send gaps h payload s =
      if u.txActive = true then .next (.busy, u.respond .ok u.statusWord)
      else andThen (runSpaced (sendBytesOps s.params (buildFrame h payload)) gaps.tail (u.respond .ok u.statusWord))
        fun v => .next (.sent, v) := by
  rw [send, if_neg (not_lt.2 hlen), issue, hu, andThen_next, exec_csrRd_zero hw, andThen_next,
    State.answerData_respond, sendMessage, if_neg (not_lt.2 hlen), txWaitOver_statusWord]
  cases u.txActive <;> rfl

end

/-- `SEND_SYMS` under the invariants, with ticks among its commands: the transmission begins with the whole list in the
symbol buffer (30_encoding.md R106). -/
theorem State.Inv.sendSyms_spaced {s : State} (hs : s.Inv) {entries : List Byte} (hidle : s.txActive = false)
    (hroom : entries.length ≤ s.params.txBufCap) (gaps : List (List Bool)) :
    ∃ t, t.Inv ∧ State.Loaded s.params entries t ∧
      Machine.runSpaced (sendSymsOps entries) gaps s = .next (t.startTx.respond .ok 0) := by
  obtain ⟨u, -, hu, huinv, hl, -⟩ := hs.load_spaced hidle hroom gaps
  obtain ⟨t, ht, hinv⟩ := huinv.runTicks ((gaps.drop (loadOps entries).length).headD [])
  have hlt := hl.runTicks ht
  refine ⟨t, hinv, hlt, ?_⟩
  rw [sendSymsOps, runSpaced_append, hu, andThen_next, runSpaced_cons, Machine.issue, ht, andThen_next,
    exec_txStart_idle hinv.params_wf hlt.idle]
  rfl

/-- A loaded buffer read out from its first entry to its last. -/
theorem State.Loaded.map_range {p : Params} {entries : List Byte} {t : State} (h : State.Loaded p entries t) :
    (List.range t.txLen.toNat).map (t.byteAt .tx) = entries := by
  refine List.ext_getElem (by simp [h.txLen]) fun k hk hk' => ?_
  rw [List.getElem_map, List.getElem_range, h.bytes k hk']

/-! ### `end` -/

namespace State

/-- How many ticks a transmission still takes, the completing one among them; 0 while idle (41_tick_tx.md R159). -/
def txTicksLeft (s : State) : Nat :=
  if s.txActive then 8 * (s.streamBits - s.sentBits) + (8 - s.txSample.toNat) % 8 + 1 else 0

theorem txTicksLeft_of_active {s : State} (ha : s.txActive = true) :
    s.txTicksLeft = 8 * (s.streamBits - s.sentBits) + (8 - s.txSample.toNat) % 8 + 1 := if_pos ha

theorem txTicksLeft_of_idle {s : State} (ha : s.txActive = false) : s.txTicksLeft = 0 := by
  simp [txTicksLeft, ha]

theorem txTicksLeft_le (s : State) : s.txTicksLeft ≤ 8 * (s.streamBits + 1) := by
  unfold txTicksLeft
  split <;> omega

/-- A tick is one tick less. -/
theorem Inv.txTicksLeft_tick {s t : State} {x : Bool} (hs : s.Inv) (ht : Machine.exec (.tick x) s = .next t) :
    t.txTicksLeft = s.txTicksLeft - 1 := by
  have hsample : s.txSample.toNat < 8 := (Params.facts hs.params_wf).oversampling ▸ hs.txSample_lt
  have hbits := (sameStream_of_exec_tick ht).streamBits
  cases ha : s.txActive with
  | false =>
    obtain ⟨hidle, -⟩ := sameTransmitGroup_of_idle_tick ha ht
    rw [txTicksLeft_of_idle ha, txTicksLeft_of_idle (hidle.trans ha)]
  | true =>
    rw [txTicksLeft_of_active ha]
    by_cases hzero : s.txSample = 0
    · have hnone : s.txSample.toNat = 0 := congrArg BitVec.toNat hzero
      rcases lt_or_ge s.sentBits s.streamBits with hleft | hdone
      · obtain ⟨hactive, hone, hmore, -⟩ := hs.tick_sends ha hzero hleft ht
        rw [txTicksLeft_of_active hactive, hone, hmore, hbits]
        omega
      · obtain ⟨hidle, -⟩ := hs.tick_completes ha hzero hdone ht
        rw [txTicksLeft_of_idle hidle]
        omega
    · obtain ⟨hactive, hcount, hsame, -⟩ := hs.tick_between_bits ha hzero ht
      have hpos : s.txSample.toNat ≠ 0 := fun h => hzero (BitVec.eq_of_toNat_eq h)
      rw [txTicksLeft_of_active hactive, hcount, hsame, hbits]
      omega

/-- Ticks in a row are that many less. -/
theorem Inv.txTicksLeft_runTicks {s t : State} {xs : List Bool} (hs : s.Inv)
    (ht : Machine.runTicks xs s = .next t) : t.txTicksLeft = s.txTicksLeft - xs.length := by
  induction xs generalizing s with
  | nil =>
    cases ht
    rfl
  | cons x xs ih =>
    obtain ⟨u, hu, ht⟩ := andThen_eq_next.1 ht
    rw [ih (hs.of_exec hu) ht, hs.txTicksLeft_tick hu, List.length_cons]
    omega

/-- `WAIT_TX` with enough ticks in its gaps sees the transmission end. -/
theorem Inv.waitTx_ends {s : State} (hs : s.Inv) {l : List (List Bool)} (hl : s.txTicksLeft ≤ l.flatten.length) :
    ∃ t, waitTx l s = .next (true, t) := by
  induction l generalizing s with
  | nil =>
    have hidle : s.txActive = false := by
      by_contra ha
      rw [txTicksLeft_of_active (Bool.not_eq_false _ ▸ ha)] at hl
      exact absurd hl (Nat.not_succ_le_zero _)
    exact ⟨_, waitFor_of_ready hs.params_wf (by rw [txWaitOver_statusWord, hidle]; rfl) []⟩
  | cons xs l ih =>
    rw [waitTx, waitFor_cons hs.params_wf]
    split
    · exact ⟨_, rfl⟩
    · obtain ⟨t, ht, hinv⟩ := (hs.respond .ok s.statusWord).runTicks xs
      have hless := (hs.respond .ok s.statusWord).txTicksLeft_runTicks ht
      rw [ht, andThen_next]
      refine ih hinv ?_
      rw [hless, show (s.respond .ok s.statusWord).txTicksLeft = s.txTicksLeft from rfl]
      simp only [List.flatten_cons, List.length_append] at hl
      omega

/-- Once a receiver is off and the transmitter idle no tick turns either on (40_tick_rx.md R121, 41_tick_tx.md R151). -/
theorem off_of_runTicks {s t : State} {xs : List Bool}
    (h : s.rxEnabled = false ∧ s.rxActive = false ∧ s.txActive = false) (ht : runTicks xs s = .next t) :
    t.rxEnabled = false ∧ t.rxActive = false ∧ t.txActive = false := by
  induction xs generalizing s with
  | nil =>
    cases ht
    exact h
  | cons x xs ih =>
    obtain ⟨u, hu, ht⟩ := andThen_eq_next.1 ht
    obtain ⟨hoff, hclosed, hidle⟩ := h
    rw [execTick_of_off (params_wf_of_exec hu) hoff hidle] at hu
    cases hu
    exact ih ⟨hoff, hclosed, hidle⟩ ht

end State

/-- `RX_DISABLE` and the ticks around it, once the transmission is over, leave both engines off. -/
theorem State.Inv.stop_tail {s : State} (hs : s.Inv) (hidle : s.txActive = false) (before after : List Bool) :
    ∃ t u, Machine.runSpaced endOps [before] s = .next t ∧ Machine.runTicks after t = .next u ∧ u.Inv ∧
      u.rxEnabled = false ∧ u.rxActive = false ∧ u.txActive = false := by
  obtain ⟨v, -, hv, -, -, hinv, -, hidle', -⟩ := hs.runTicks_sameReceiver hs (.refl s) hidle hidle before
  have hdisable := exec_rxDisable hinv.params_wf
  obtain ⟨u, hu, huinv⟩ := (hinv.disableRx.respond .ok 0).runTicks after
  refine ⟨_, u, ?_, hu, huinv, State.off_of_runTicks (s := v.disableRx.respond .ok 0) ⟨rfl, rfl, hidle'⟩ hu⟩
  rw [endOps, runSpaced_cons, Machine.issue, List.headD_cons, hv, andThen_next, hdisable]
  rfl

/-- What `end` comes to (46_link_layer_contract.md R208): the wait's result decides; once it is over both engines and the
tick source are off, and else only the wait has run. -/
theorem Driver.stop_spec {d : Driver} (hd : d.block.Inv) (l : List (List Bool)) (before after : List Bool) :
    ∃ ended t e, waitTx (l.map d.strobes) d.block = .next (ended, t) ∧ d.stop l before after = .next (ended, e) ∧
      e.block.Inv ∧ e.setting = d.setting ∧ e.receives = d.receives ∧
      (ended = true → e.ticking = false ∧ e.block.rxEnabled = false ∧ e.block.rxActive = false ∧
        e.block.txActive = false) ∧
      (ended = false → e.ticking = d.ticking ∧ e.block.txActive = true) := by
  obtain ⟨t, ht, hinv, -⟩ := hd.waitFor txWaitOver (l.map d.strobes)
  rw [txWaitOver_statusWord] at ht
  cases ha : t.txActive with
  | true =>
    rw [ha] at ht
    refine ⟨false, t, { d with block := t }, ht, ?_, hinv, rfl, rfl, fun h => absurd h Bool.false_ne_true,
      fun _ => ⟨rfl, ha⟩⟩
    rw [Driver.stop, waitTx, ht]
    rfl
  | false =>
    rw [ha] at ht
    obtain ⟨u, v, hu, hv, hvinv, hoff⟩ := hinv.stop_tail ha (d.strobes before) (d.strobes after)
    refine ⟨true, t, { d with block := v, ticking := false }, ht, ?_, hvinv, rfl, rfl, fun _ => ⟨rfl, hoff⟩,
      fun h => absurd h.symm Bool.false_ne_true⟩
    rw [Driver.stop, waitTx, ht, andThen_next]
    show andThen (runSpaced endOps [d.strobes before] t) _ = _
    rw [hu, andThen_next, hv]
    rfl

/-! ### The contract -/

/-- What a wait comes to. -/
theorem wait_contract {s : State} (hs : s.Inv) (ready : Word → Bool) (l : List (List Bool)) :
    ∃ shown t, waitFor ready l s = .next (shown, t) ∧ t.Inv ∧ shown = ready t.statusWord ∧
      t.resp = some ⟨.ok, t.statusWord⟩ ∧
      (ready s.statusWord = true → t = { s with resp := some ⟨.ok, s.statusWord⟩ }) := by
  obtain ⟨t, ht, hinv, hresp⟩ := hs.waitFor ready l
  refine ⟨_, t, ht, hinv, rfl, hresp, fun h => ?_⟩
  rw [waitFor_of_ready hs.params_wf h] at ht
  obtain ⟨-, rfl⟩ := Prod.mk.inj (Host.Outcome.next.inj ht)
  rfl

/-- What `send` comes to with a transmitter that is idle and a payload that fits. -/
theorem send_contract {s : State} (hs : s.Inv) (hlink : s.params.linkLayer = true) (hheader : s.params.headerSize = 5)
    (hidle : s.txActive = false) {payload : List Byte} (hlen : payload.length ≤ s.params.payloadMax)
    (gaps : List (List Bool)) (h : Header) :
    ∃ t, send gaps h payload s = .next (.sent, t) ∧ t.Inv ∧ t.txActive = true ∧ t.txSample = 0 ∧ t.txBit = 0 ∧
      t.txIndex = 0 ∧ t.txOut = false ∧ t.resp = some ⟨.ok, 0⟩ ∧
      (List.range t.txLen.toNat).map (t.byteAt .tx) = expandFrame s.params (buildFrame h payload) := by
  obtain ⟨-, -, -, -, -, hroom⟩ := messageFitsTheSymbolBuffer s.params h payload hs.params_wf hlink hheader hlen
  obtain ⟨u, -, hu, -, -, hinv, -, hidle', -⟩ := hs.runTicks_sameReceiver hs (.refl s) hidle hidle (gaps.headD [])
  have hparams := State.params_of_runTicks hu
  obtain ⟨t, htinv, hl, ht⟩ := (hinv.respond .ok u.statusWord).sendSyms_spaced hidle'
    (entries := expandFrame s.params (buildFrame h payload)) (by simpa [hparams] using hroom) gaps.tail
  refine ⟨t.startTx.respond .ok 0, ?_, htinv.startTx.respond .ok 0, rfl, rfl, rfl, rfl, (htinv.tx_idle hl.idle).1, rfl,
    hl.map_range⟩
  rw [send_eq hlen hu hinv.params_wf, if_neg (by simp [hidle']), sendBytesOps, ht]
  rfl

/-- Settles O59: each clause is the lemma about its call. -/
theorem driverFollowsTheContract : Obligations.DriverFollowsTheContract := by
  refine ⟨fun ready l s hs => wait_contract hs ready l, fun gaps s hs => ⟨runOps_drainOps hs.params_wf s.bufLen, ?_⟩,
    ?_, ?_, ?_, ?_⟩
  · obtain ⟨bytes, t, ht, hinv, hready, hresp, hplain, hsafe⟩ := hs.drain gaps
    exact ⟨bytes, t, ht, hinv, hready, hresp, hplain, hsafe⟩
  · rintro network device broadcast during next l s _ hs rfl
    refine ⟨fun hready => ?_, fun hready => ?_⟩
    · have hpoll := recvPoll_of_not_ready hs.params_wf ((rxWaitOver_statusWord s).trans hready) network device broadcast
        during
      exact ⟨recv_nil_of_none hpoll, recv_cons_of_none hpoll next l⟩
    · obtain ⟨bytes, t, ht, -⟩ := (hs.respond .ok s.statusWord).drain during
      have hpoll := recvPoll_of_ready network device broadcast hs.params_wf hready ht
      refine ⟨bytes, t, ht, fun hcheck => ?_, fun src port payload hcheck => ?_, fun hcheck => ?_⟩
      · rw [hcheck] at hpoll
        exact recv_of_some hpoll l
      · rw [hcheck] at hpoll
        exact recv_of_some hpoll l
      · rw [hcheck] at hpoll
        exact ⟨recv_nil_of_none hpoll, recv_cons_of_none hpoll next l⟩
  · refine fun gaps h payload s hw => ⟨fun hlen => if_pos hlen, fun hlen u hu hactive => ?_,
      fun hlen hlink hheader hs hidle => send_contract hs hlink hheader hidle hlen gaps h⟩
    rw [send_eq hlen hu (State.params_of_runTicks hu ▸ hw), if_pos hactive]
    rfl
  · refine fun round hw bitRate xs d hd => ⟨fun hnone => ?_, fun c hc => ⟨fun hreceives u hu => ?_, fun hreceives => ?_⟩⟩
    · rw [Driver.start, hnone]
    · have henable := exec_rxEnable (State.params_of_runTicks hu ▸ hd)
      refine ⟨_, henable, ?_⟩
      rw [Driver.start, hc]
      simp only [beginOps, hreceives, if_true, runSpaced_cons, issue, List.headD_cons, hu, andThen_next, henable]
      rfl
    · rw [Driver.start, hc]
      simp only [beginOps, hreceives]
      rfl
  · intro l before after xs d hd
    obtain ⟨ended, t, e, hwait, hstop, hinv, hsetting, hreceives, hended, hgoing⟩ := Driver.stop_spec hd l before after
    have ends {u : State} (h : waitTx (l.map d.strobes) d.block = .next (true, u)) : ended = true := by
      rw [hwait] at h
      cases h
      rfl
    obtain ⟨u, hu, -⟩ := hd.runTicks xs
    refine ⟨⟨ended, e, hstop, hinv, hsetting, hreceives, hended, hgoing, fun hidle => ?_, fun hticking hlen => ?_⟩, rfl,
      rfl, u, hu, ?_⟩
    · exact ends (waitFor_of_ready hd.params_wf (by rw [txWaitOver_statusWord, hidle]; rfl) _)
    · have hstrobes : l.map d.strobes = l := by
        rw [show d.strobes = id from funext fun _ => if_pos hticking, List.map_id]
      obtain ⟨u, hu⟩ := hd.waitTx_ends (l := l.map d.strobes)
        (hstrobes.symm ▸ (State.txTicksLeft_le d.block).trans hlen)
      exact ends hu
    · rw [Driver.offerTicks, Driver.strobes, Driver.powerUp, if_pos rfl, hu]
      rfl

end Sys2Proof.Machine
end

section
/-! The bit recovery of P0 on its own (40_tick_rx.md R122 to R128, R140): the three registers of the PLL, run on the samples
of a line. From every phase the preamble locks it, and a locked PLL decides every bit of the line, one of them pending. -/

namespace Sys2Proof.Machine

/-- The registers of the PLL: `ramp`, `integ` and the sample before. -/
structure Pll where
  ramp : Nat
  integ : Nat
  last : Bool
  deriving DecidableEq

namespace Pll

/-- The increment of P0 (R122, R123). -/
def step (q : Pll) (x : Bool) : Nat := if x = q.last then 20 else if q.ramp < 80 then 11 else 29

/-- One tick with P0: the registers after it, and the bit it decides if it is a bit tick (R123 to R128). -/
def tick (q : Pll) (x : Bool) : Pll × List Bool :=
  if q.ramp + q.step x < 160 then (⟨q.ramp + q.step x, q.integ + x.toNat, x⟩, [])
  else (⟨q.ramp + q.step x - 160, 0, x⟩, [decide (5 ≤ q.integ + x.toNat)])

/-- Ticks in a row, and the bits they decide in order. -/
def run : List Bool → Pll → Pll × List Bool
  | [], q => (q, [])
  | x :: xs, q => ((run xs (q.tick x).1).1, (q.tick x).2 ++ (run xs (q.tick x).1).2)

theorem run_append (xs ys : List Bool) (q : Pll) :
    run (xs ++ ys) q = ((run ys (run xs q).1).1, (run xs q).2 ++ (run ys (run xs q).1).2) := by
  induction xs generalizing q with
  | nil => rfl
  | cons x xs ih => simp [run, ih]

end Pll

/-- The samples of a line that carries these bits, eight ticks a bit (41_tick_tx.md R159). -/
def wire (bits : List Bool) : List Bool := bits.flatMap (List.replicate 8)

theorem wire_append (bits more : List Bool) : wire (bits ++ more) = wire bits ++ wire more := List.flatMap_append

/-- No history along these bits, shifted in after `h`, is the start symbol of P0. -/
def clean (h : Word) : List Bool → Bool
  | [] => true
  | b :: bits => State.shiftIn Params.p0 h b ≠ Params.p0.startSymbol && clean (State.shiftIn Params.p0 h b) bits

theorem clean_append (h : Word) (bits more : List Bool) :
    clean h (bits ++ more) = (clean h bits && clean (shiftBits Params.p0 h bits) more) := by
  induction bits generalizing h with
  | nil => rfl
  | cons b bits ih => simp [clean, ih, Bool.and_assoc]

/-- A line that stays low leaves an empty history empty. -/
theorem shiftBits_low (k : Nat) :
    shiftBits Params.p0 0 (List.replicate k false) = 0 ∧ clean 0 (List.replicate k false) = true := by
  have hlow : State.shiftIn Params.p0 0 false = 0 := by decide
  induction k with
  | zero => exact ⟨rfl, rfl⟩
  | succ k ih =>
    rw [List.replicate_succ, shiftBits_cons, clean, hlow]
    exact ⟨ih.1, by rw [ih.2]; decide⟩

/-! ### The preamble of P0 -/

/-- The alternating bits of the first six preamble entries (00_scope.md R9). -/
def alternation : List Bool := (List.replicate 6 (0x2A : Byte)).flatMap (entryBits Params.p0)

/-- The bits of the start symbol in the order they are sent, but for the last of them (30_encoding.md R101). -/
def startInit : List Bool := [false, false, false, true, true, true, false, false, true, true, false]

theorem preambleBits_p0 : Params.p0.preamble.flatMap (entryBits Params.p0) = alternation ++ (startInit ++ [true]) := by
  decide

/-- After an alternation that ended high the bits of the start symbol leave it in the history, and nothing before does. -/
theorem startInit_after_alternation :
    clean 0xAAA startInit = true ∧ shiftBits Params.p0 0xAAA (startInit ++ [true]) = Params.p0.startSymbol := by
  decide

namespace Pll

/-! ### A locked PLL -/

/-- The PLL is locked at a bit boundary: the ramp has just wrapped and every bit of the line is decided, or it is about to
wrap and the bit just sent is pending, counted in all its samples or all but the first. -/
def locked (q : Pll) : Bool :=
  (q.ramp < 9 && q.integ = 0) ||
    (151 ≤ q.ramp && q.ramp < 160 && (q.integ = 7 * q.last.toNat || q.integ = 8 * q.last.toNat))

/-- The bit that the PLL has still to decide at a bit boundary. -/
def pending (q : Pll) : List Bool := if q.ramp < 9 then [] else [q.last]

/-- A bit sent to a PLL that has just wrapped: without a transition the ramp makes one turn, with one it falls behind by 9
and the bit is pending. -/
theorem run_bit_of_early : ∀ r < 9, ∀ last b : Bool, run (List.replicate 8 b) ⟨r, 0, last⟩ =
    if b = last then (⟨r, 0, b⟩, [b]) else (⟨r + 151, 8 * b.toNat, b⟩, []) := by
  decide

/-- A bit sent to a PLL that is about to wrap: its first sample decides the bit before; without a transition the bit itself
is pending then, with one the ramp catches up by 9 and decides it too. -/
theorem run_bit_of_late : ∀ r < 9, ∀ last b : Bool, ∀ i ∈ [7 * last.toNat, 8 * last.toNat],
    run (List.replicate 8 b) ⟨r + 151, i, last⟩ =
      if b = last then (⟨r + 151, 7 * b.toNat, b⟩, [last]) else (⟨r, 0, b⟩, [last, b]) := by
  decide

/-- A locked PLL stays locked, and decides the bit pending before or leaves the new one pending, or both. -/
theorem run_bit {q : Pll} (hq : q.locked = true) (b : Bool) :
    (run (List.replicate 8 b) q).1.locked = true ∧
      (run (List.replicate 8 b) q).2 ++ (run (List.replicate 8 b) q).1.pending = q.pending ++ [b] := by
  obtain ⟨r, i, last⟩ := q
  simp only [locked, Bool.or_eq_true, Bool.and_eq_true, decide_eq_true_eq] at hq
  obtain ⟨hr, rfl⟩ | ⟨⟨hlow, hhigh⟩, hi⟩ := hq
  · have hfar : ¬ r + 151 < 9 := by omega
    have hnear : r + 151 < 160 := by omega
    rw [run_bit_of_early r hr]
    split
    next h => simp [locked, pending, hr]
    next h => simp [locked, pending, hr, hfar, hnear]
  · obtain ⟨k, hk, rfl⟩ : ∃ k < 9, r = k + 151 := ⟨r - 151, by omega, by omega⟩
    have hfar : ¬ k + 151 < 9 := by omega
    rw [run_bit_of_late k hk last b i (by simpa using hi)]
    split
    next h => simp [locked, pending, hfar, hhigh]
    next h => simp [locked, pending, hk, hfar]

/-- A low sample after the last bit decides what is pending. -/
theorem tick_decides_pending {q : Pll} (hq : q.locked = true) : (q.tick false).2 = q.pending := by
  have early : ∀ r < 9, ∀ last : Bool, (tick ⟨r, 0, last⟩ false).2 = [] := by decide
  have late : ∀ r < 9, ∀ last : Bool, ∀ i ∈ [7 * last.toNat, 8 * last.toNat],
      (tick ⟨r + 151, i, last⟩ false).2 = [last] := by decide
  obtain ⟨r, i, last⟩ := q
  simp only [locked, Bool.or_eq_true, Bool.and_eq_true, decide_eq_true_eq] at hq
  obtain ⟨hr, rfl⟩ | ⟨⟨hlow, hhigh⟩, hi⟩ := hq
  · rw [early r hr, pending, if_pos hr]
  · obtain ⟨k, hk, rfl⟩ : ∃ k < 9, r = k + 151 := ⟨r - 151, by omega, by omega⟩
    rw [late k hk last i (by simpa using hi), pending, if_neg (by simp)]

/-- A locked PLL decides every bit of the line, the last one at the latest with a low sample after it. -/
theorem run_wire {q : Pll} (hq : q.locked = true) (bits : List Bool) :
    (run (wire bits ++ [false]) q).2 = q.pending ++ bits := by
  induction bits generalizing q with
  | nil => simp [wire, run, tick_decides_pending hq]
  | cons b bits ih =>
    obtain ⟨hlocked, hbits⟩ := run_bit hq b
    rw [wire, List.flatMap_cons, List.append_assoc, run_append, ← wire, ih hlocked, ← List.append_assoc, hbits,
      List.append_assoc, List.singleton_append]

/-! ### Locking -/

/-- On a low line the ramp of an enabled receiver turns once in eight ticks, each turn deciding a 0. -/
theorem run_low (z : Nat) :
    run (List.replicate z false) ⟨0, 0, false⟩ = (⟨20 * (z % 8), 0, false⟩, List.replicate (z / 8) false) := by
  induction z with
  | zero => rfl
  | succ z ih =>
    have turn : ∀ k < 8, tick ⟨20 * k, 0, false⟩ false =
        if k < 7 then (⟨20 * (k + 1), 0, false⟩, []) else (⟨0, 0, false⟩, [false]) := by decide
    rw [List.replicate_succ', run_append, ih, run, run, turn _ (Nat.mod_lt z (by decide))]
    rcases Nat.lt_or_ge (z % 8) 7 with h | h
    · rw [if_pos h, show (z + 1) % 8 = z % 8 + 1 by omega, show (z + 1) / 8 = z / 8 by omega]
      simp
    · rw [if_neg (not_lt.2 h), show (z + 1) % 8 = 0 by omega, show (z + 1) / 8 = z / 8 + 1 by omega,
        List.replicate_succ']
      simp

/-- The PLL after the alternation that reaches it in phase `k` of a low line, and the bits decided. -/
def afterAlternation (k : Nat) : Pll × List Bool := run (wire alternation) ⟨20 * k, 0, false⟩

/-- The bits decided and the one pending. -/
def decidedAndPending (r : Pll × List Bool) : List Bool := r.2 ++ r.1.pending

/-- From each of the eight phases of a low line the alternation locks the PLL, without a start symbol on the way, and the
last bits decided or pending are the alternation's own. -/
theorem alternation_locks : ∀ k < 8, (afterAlternation k).1.locked = true ∧
    clean 0 (decidedAndPending (afterAlternation k)) = true ∧
    shiftBits Params.p0 0 (decidedAndPending (afterAlternation k)) = 0xAAA := by
  decide +kernel

/-- Whatever the phase in which a line begins, the bits decided are some that hold no start symbol, then the start symbol's
last bit, then the bits that follow the preamble, each once and in order. -/
theorem recovers (z : Nat) (bits : List Bool) :
    ∃ lead b, clean 0 lead = true ∧ shiftBits Params.p0 0 (lead ++ [b]) = Params.p0.startSymbol ∧
      (run (List.replicate z false ++ (wire (Params.p0.preamble.flatMap (entryBits Params.p0) ++ bits) ++ [false]))
        ⟨0, 0, false⟩).2 = lead ++ b :: bits := by
  obtain ⟨hlocked, hclean, hhist⟩ := alternation_locks (z % 8) (Nat.mod_lt _ (by decide))
  obtain ⟨hlow, hlowClean⟩ := shiftBits_low (z / 8)
  obtain ⟨hstartClean, hstart⟩ := startInit_after_alternation
  refine ⟨List.replicate (z / 8) false ++ decidedAndPending (afterAlternation (z % 8)) ++ startInit, true, ?_, ?_, ?_⟩
  · rw [clean_append, clean_append, shiftBits_append, hlow, hlowClean, hclean, hhist, hstartClean]
    rfl
  · rw [List.append_assoc _ startInit, List.append_assoc, shiftBits_append, hlow, shiftBits_append, hhist, hstart]
  · rw [preambleBits_p0, List.append_assoc, wire_append, List.append_assoc, run_append, run_low, run_append,
      ← afterAlternation, run_wire hlocked, decidedAndPending]
    simp only [List.append_assoc, List.singleton_append]

end Pll

end Sys2Proof.Machine
end

section
/-! A receiver in P0 on a line that carries a frame (40_tick_rx.md R129 to R136): its ticks are the ticks of its PLL, and
each bit that the PLL decides moves it on in the frame it expects. -/

namespace Sys2Proof.Machine

/-! ### The bits of a frame -/

/-- The bits of a byte on the wire: those of its two symbols (30_encoding.md R100, R102). -/
def byteBits (b : Byte) : List Bool := (symbolPair Params.p0 b).flatMap (entryBits Params.p0)

/-- The bits of a frame after its preamble (46_link_layer_contract.md R203). -/
def frameBits (frame : List Byte) : List Bool := frame.flatMap byteBits

@[simp] theorem frameBits_nil : frameBits [] = [] := rfl

@[simp] theorem frameBits_cons (b : Byte) (frame : List Byte) : frameBits (b :: frame) = byteBits b ++ frameBits frame :=
  List.flatMap_cons

theorem length_byteBits (b : Byte) : (byteBits b).length = 12 := by
  simp [byteBits, symbolPair, entryBits, Params.p0]

theorem byteBits_ne_nil (b : Byte) : byteBits b ≠ [] :=
  List.ne_nil_of_length_pos (by rw [length_byteBits]; decide)

/-- The entries of a frame carry the preamble's bits and the frame's. -/
theorem expandFrame_bits (frame : List Byte) : (expandFrame Params.p0 frame).flatMap (entryBits Params.p0) =
    Params.p0.preamble.flatMap (entryBits Params.p0) ++ frameBits frame := by
  rw [expandFrame, List.flatMap_append, symbolsOf, List.flatMap_assoc]
  rfl

theorem facts_p0 : Params.p0.Facts := Params.facts State.reset_params_wf

namespace State

variable {s t : State} {x : Bool}

/-! ### A tick and the bits it decides -/

/-- The PLL of a receiver. -/
def pll (s : State) : Pll := ⟨s.ramp.toNat, s.integ.toNat, s.lastSample⟩

/-- The receiver of `t` stands in the same frame as that of `s`. -/
structure SameFrame (s t : State) : Prop where
  active : t.rxActive = s.rxActive
  ready : t.rxReady = s.rxReady
  bitCount : t.bitCount = s.bitCount
  bufLen : t.bufLen = s.bufLen
  expLen : t.expLen = s.expLen
  bytes : ∀ i, t.byteAt .rx i = s.byteAt .rx i

/-- In P0 a tick of a running receiver is a tick of its PLL: it decides no bit and leaves history and frame, or it decides
one and shifts it in (R123 to R128). -/
theorem Listening.tick_p0 (h : s.Listening) (hp0 : s.params = Params.p0) (x : Bool) :
    ∃ t, exec (.tick x) s = .next t ∧ t.Listening ∧ t.params = Params.p0 ∧ t.pll = (s.pll.tick x).1 ∧
      ((s.pll.tick x).2 = [] ∧ t.hist = s.hist ∧ s.SameFrame t ∨
        (s.pll.tick x).2 = [s.decidedBit x] ∧ s.isBitTick x = true ∧
          t.hist = State.shiftIn Params.p0 s.hist (s.decidedBit x)) := by
  obtain ⟨t, ht, hl, hparams, -, -⟩ := h.tick x
  obtain ⟨u, hu, hlast, hbelow, hwrap⟩ :=
    rampAdvancesAndWrapsIntoABit s x _ h.inv h.runs (s.rampStep_eq (Params.facts h.inv.params_wf) x)
  cases ht.symm.trans hu
  have hstep : s.pll.step x = s.rampStep x := (rampStep_p0 hp0 x).symm
  have hmax : s.params.rampMax = 160 := congrArg Params.rampMax hp0
  refine ⟨t, ht, hl, hparams.trans hp0, ?_⟩
  rcases lt_or_ge (s.ramp.toNat + s.rampStep x) s.params.rampMax with hlt | hge
  · obtain ⟨hramp, hinteg, hhist, hactive, hready, hbits, hlen, hexp, hbytes⟩ := hbelow hlt
    have hno : s.pll.tick x = (⟨s.ramp.toNat + s.rampStep x, s.integ.toNat + x.toNat, x⟩, []) := by
      rw [Pll.tick, hstep]
      exact if_pos (hmax ▸ hlt)
    rw [hno]
    exact ⟨by rw [pll, hramp, hinteg, hlast], .inl ⟨rfl, hhist, hactive, hready, hbits, hlen, hexp, hbytes⟩⟩
  · obtain ⟨hramp, -, hinteg, hhist, -⟩ := hwrap hge
    have hdecided : s.decidedBit x = decide (5 ≤ s.integ.toNat + x.toNat) := by
      rw [decidedBit, integSum, hp0]
      rfl
    have hone : s.pll.tick x = (⟨s.ramp.toNat + s.rampStep x - 160, 0, x⟩, [s.decidedBit x]) := by
      rw [Pll.tick, hstep, hdecided]
      exact if_neg (not_lt.2 (hmax ▸ hge))
    rw [hone]
    refine ⟨by rw [pll, hramp, hinteg, hlast, hmax]; rfl, .inr ⟨rfl, isBitTick_iff.2 hge, ?_⟩⟩
    rw [hhist, ← hp0]
    exact (shiftIn_decide ..).symm

/-! ### The stages of a frame -/

/-- No frame is open, and the bits to come hold the start symbol just before the frame's own bits. -/
structure Scanning (frame : List Byte) (s : State) (rest : List Bool) : Prop where
  idle : s.rxActive = false
  notReady : s.rxReady = false
  line : ∃ lead b, rest = lead ++ b :: frameBits frame ∧ clean s.hist lead = true ∧
    shiftBits Params.p0 s.hist (lead ++ [b]) = Params.p0.startSymbol

/-- The frame is open: the bytes `done` are stored, the bits `part` of the byte `b` are taken and its bits `todo` and the
bytes `more` are still to come. -/
structure Collecting (done : List Byte) (b : Byte) (more : List Byte) (part todo : List Bool) (s : State) : Prop where
  active : s.rxActive = true
  bits : byteBits b = part ++ todo
  left : todo ≠ []
  window : ∃ h : Word, h.toNat < 2 ^ (2 * Params.p0.symbolBits) ∧ s.hist = shiftBits Params.p0 h part
  bitCount : s.bitCount.toNat = part.length
  bufLen : s.bufLen.toNat = done.length
  expLen : done ≠ [] → s.expLen.toNat = (done ++ b :: more).length
  bytes : ∀ k (h : k < done.length), s.byteAt .rx k = done[k]

/-- The whole frame waits for the host. -/
structure Holds (frame : List Byte) (s : State) : Prop where
  ready : s.rxReady = true
  bufLen : s.bufLen.toNat = frame.length
  bytes : ∀ k (h : k < frame.length), s.byteAt .rx k = frame[k]

/-- Where a receiver stands whose PLL has the bits `rest` still to decide, until it holds the frame. -/
def Expects (frame : List Byte) (s : State) (rest : List Bool) : Prop :=
  s.Scanning frame rest ∨
    (∃ done b more part todo, frame = done ++ b :: more ∧ rest = todo ++ frameBits more ∧
      Collecting done b more part todo s) ∨
    s.Holds frame

/-- A receiver that has all its bits holds the frame. -/
theorem Expects.holds {frame : List Byte} (h : Expects frame s []) : s.Holds frame := by
  obtain ⟨-, -, lead, b, hline, -⟩ | ⟨done, b, more, part, todo, -, hrest, hc⟩ | h := h
  · simp at hline
  · exact absurd (List.append_eq_nil_iff.1 hrest.symm).1 hc.left
  · exact h

theorem Scanning.of_sameFrame {frame : List Byte} {rest : List Bool} (h : s.Scanning frame rest) (hs : s.SameFrame t)
    (hhist : t.hist = s.hist) : t.Scanning frame rest :=
  ⟨hs.active.trans h.idle, hs.ready.trans h.notReady, hhist ▸ h.line⟩

theorem Collecting.of_sameFrame {done more : List Byte} {b : Byte} {part todo : List Bool}
    (h : Collecting done b more part todo s) (hs : s.SameFrame t) (hhist : t.hist = s.hist) :
    Collecting done b more part todo t where
  active := hs.active.trans h.active
  bits := h.bits
  left := h.left
  window := hhist ▸ h.window
  bitCount := hs.bitCount ▸ h.bitCount
  bufLen := hs.bufLen ▸ h.bufLen
  expLen := hs.expLen ▸ h.expLen
  bytes k hk := (hs.bytes k).trans (h.bytes k hk)

/-- A frame that opens expects its first byte (R130). -/
theorem collecting_of_open {b : Byte} {more : List Byte} (hactive : s.rxActive = true) (hbits : s.bitCount = 0)
    (hlen : s.bufLen = 0) (hwindow : s.hist.toNat < 2 ^ (2 * Params.p0.symbolBits)) :
    Collecting [] b more [] (byteBits b) s where
  active := hactive
  bits := rfl
  left := byteBits_ne_nil b
  window := ⟨s.hist, hwindow, rfl⟩
  bitCount := congrArg BitVec.toNat hbits
  bufLen := congrArg BitVec.toNat hlen
  expLen h := absurd rfl h
  bytes _ h := absurd h (Nat.not_lt_zero _)

/-- A frame that P0 takes: its first byte is its length, and that is in range (46_link_layer_contract.md R202, R205). -/
structure Receivable (frame : List Byte) : Prop where
  min : 8 ≤ frame.length
  max : frame.length ≤ 38
  first : (frame.getD 0 0).toNat = frame.length

/-! ### One bit of a frame -/

/-- Outside a frame a decided bit brings the start symbol nearer or is its last (R130). -/
theorem Listening.scans (h : s.Listening) (hp0 : s.params = Params.p0) (hb : s.isBitTick x = true) {frame : List Byte}
    (hne : frame ≠ []) {rest : List Bool} (hscan : s.Scanning frame (s.decidedBit x :: rest))
    (ht : exec (.tick x) s = .next t) : Expects frame t rest := by
  obtain ⟨u, hu, hhist, -, -, -, -, hopens, hstays⟩ := startSymbolOpensAFrame s x h.inv h.runs hb hscan.idle
  cases ht.symm.trans hu
  rw [hp0] at hhist hopens hstays
  obtain ⟨lead, b, hline, hclean, hstart⟩ := hscan.line
  cases lead with
  | nil =>
    obtain ⟨hbit, rfl⟩ := List.cons.inj hline
    obtain ⟨c, more, rfl⟩ := List.exists_cons_of_ne_nil hne
    have hfound : t.hist = Params.p0.startSymbol := by rw [hhist, hbit]; exact hstart
    obtain ⟨hactive, hbits, hlen, -⟩ := hopens ⟨hfound, .inl hscan.notReady⟩
    exact .inr (.inl ⟨[], c, more, [], byteBits c, rfl, rfl, collecting_of_open hactive hbits hlen (by rw [hfound]; decide)⟩)
  | cons c lead =>
    obtain ⟨hbit, rfl⟩ := List.cons.inj hline
    rw [clean, Bool.and_eq_true, ← hbit, ← hhist] at hclean
    obtain ⟨hnot, hclean⟩ := hclean
    obtain ⟨hidle, -, -, -, hready⟩ := hstays (fun hfound => by simp [hfound.1] at hnot)
    refine .inl ⟨hidle, hready.trans hscan.notReady, lead, b, rfl, hclean, ?_⟩
    rwa [List.cons_append, shiftBits_cons, ← hbit, ← hhist] at hstart

/-- Inside a byte a decided bit is counted (R131). -/
theorem Listening.collects_bit (h : s.Listening) (hp0 : s.params = Params.p0) (hb : s.isBitTick x = true)
    {done more : List Byte} {b : Byte} {part todo : List Bool}
    (hc : Collecting done b more part (s.decidedBit x :: todo) s) (hleft : todo ≠ []) (ht : exec (.tick x) s = .next t)
    (hhist : t.hist = shiftIn Params.p0 s.hist (s.decidedBit x)) :
    Collecting done b more (part ++ [s.decidedBit x]) todo t := by
  obtain ⟨u, hu, hcounted, -⟩ := frameBitsAreCounted s x h.inv h.runs hb hc.active
  cases ht.symm.trans hu
  obtain ⟨h₀, hh₀, hwindow⟩ := hc.window
  have htwelve : part.length + (todo.length + 1) = 12 := by
    rw [← length_byteBits b, hc.bits, List.length_append, List.length_cons]
  have hpos := List.length_pos_of_ne_nil hleft
  obtain ⟨hbits, hactive, -, hlen, hexp, hbytes⟩ := hcounted (by rw [hc.bitCount, hp0]; simp only [Params.p0]; omega)
  refine ⟨hactive, by rw [hc.bits]; simp, hleft, ⟨h₀, hh₀, ?_⟩, ?_, hlen ▸ hc.bufLen, hexp ▸ hc.expLen, fun k hk =>
    (hbytes k).trans (hc.bytes k hk)⟩
  · rw [hhist, hwindow, shiftBits_append]
    rfl
  · rw [hbits, hc.bitCount, List.length_append, List.length_singleton]

/-- The last bit of a byte completes it: it is stored, and the frame ends with its last byte (R132 to R136). -/
theorem Listening.collects_byte (h : s.Listening) (hp0 : s.params = Params.p0) (hb : s.isBitTick x = true)
    {done more : List Byte} {b : Byte} {part : List Bool} (hframe : Receivable (done ++ b :: more))
    (hc : Collecting done b more part [s.decidedBit x] s) (ht : exec (.tick x) s = .next t)
    (hhist : t.hist = shiftIn Params.p0 s.hist (s.decidedBit x)) : Expects (done ++ b :: more) t (frameBits more) := by
  obtain ⟨h₀, hh₀, hwindow⟩ := hc.window
  have htwelve : part.length + 1 = 12 := by
    rw [← length_byteBits b, hc.bits, List.length_append, List.length_singleton]
  have hdecodes : b = s.windowByte x := by
    rw [windowByte, hp0, hwindow, show shiftIn Params.p0 (shiftBits Params.p0 h₀ part) (s.decidedBit x) =
      shiftBits Params.p0 h₀ (part ++ [s.decidedBit x]) by rw [shiftBits_append]; rfl, ← hc.bits]
    exact (decode8_shiftBits_symbolPair reset_params_wf hh₀ b _ _).symm
  have hzero : s.bufLen = 0 ↔ done = [] := by
    rw [← List.length_eq_zero_iff, ← hc.bufLen]
    exact ⟨congrArg BitVec.toNat, BitVec.eq_of_toNat_eq (y := 0)⟩
  have hfirst : done = [] → b.toNat = (done ++ b :: more).length := by
    rintro rfl
    exact hframe.first
  obtain ⟨u, hu, hbits, hstored, hbytes, hlen, -, hexpFirst, hexpLater, hends, hgoes⟩ :=
    acceptedByteIsStoredAndMayEndTheFrame s x b h.inv h.runs hb hc.active (by rw [hc.bitCount, hp0]; exact htwelve)
      hdecodes (fun hs => by
        have hmin := hframe.min
        have hmax := hframe.max
        rw [hfirst (hzero.1 hs), hp0]
        exact ⟨hmin, hmax⟩)
  cases ht.symm.trans hu
  rw [hc.bufLen] at hstored hbytes hlen
  have hexp : t.expLen.toNat = (done ++ b :: more).length := by
    by_cases hnil : done = []
    · rw [hexpFirst (hzero.2 hnil)]
      exact hfirst hnil
    · rw [hexpLater (mt hzero.1 hnil)]
      exact hc.expLen hnil
  have hall : ∀ k (hk : k < (done ++ [b]).length), t.byteAt .rx k = (done ++ [b])[k] := fun k hk => by
    rw [List.length_append, List.length_singleton] at hk
    rcases Nat.lt_or_ge k done.length with hlt | hge
    · rw [hbytes k hlt.ne, hc.bytes k hlt, List.getElem_append_left hlt]
    · obtain rfl : k = done.length := by omega
      rw [hstored, List.getElem_concat_length rfl]
  cases more with
  | nil =>
    obtain ⟨-, hready⟩ := hends (by rw [hexp, hlen]; simp)
    exact .inr (.inr ⟨hready, by rw [hlen]; simp, hall⟩)
  | cons c more =>
    obtain ⟨hactive, -⟩ := hgoes (by rw [hexp, hlen]; simp)
    refine .inr (.inl ⟨done ++ [b], c, more, [], byteBits c, by simp, frameBits_cons c more, hactive, rfl,
      byteBits_ne_nil c, ⟨t.hist, ?_, rfl⟩, by rw [hbits]; rfl, by rw [hlen]; simp, fun _ => by rw [hexp]; simp, hall⟩)
    rw [hhist]
    exact shiftIn_lt facts_p0 (hp0 ▸ h.inv.hist_lt) _

/-! ### Ticks in a row -/

/-- A held frame stays held in P0 (20_memory.md R74). -/
theorem Holds.runTicks {frame : List Byte} (h : s.Holds frame) (hs : s.Inv) (hp0 : s.params = Params.p0) {xs : List Bool}
    (ht : Machine.runTicks xs s = .next t) : t.Holds frame := by
  obtain ⟨hkept, -⟩ := hs.frameSafe_runTicks (.inr ⟨by rw [hp0]; rfl, h.ready⟩) ht
  exact ⟨hkept.ready.trans h.ready, hkept.bufLen ▸ h.bufLen, fun k hk => (hkept.bytes k).trans (h.bytes k hk)⟩

/-- A tick takes the bits that its PLL decides off the bits expected. -/
theorem Expects.tick {frame : List Byte} {rest : List Bool} (hframe : Receivable frame) (h : s.Listening)
    (hp0 : s.params = Params.p0) (he : Expects frame s ((s.pll.tick x).2 ++ rest)) :
    ∃ t, exec (.tick x) s = .next t ∧ t.Listening ∧ t.params = Params.p0 ∧ t.pll = (s.pll.tick x).1 ∧
      Expects frame t rest := by
  have hne : frame ≠ [] := List.ne_nil_of_length_pos (Nat.lt_of_lt_of_le (by decide) hframe.min)
  obtain ⟨t, ht, hl, hparams, hpll, htick⟩ := h.tick_p0 hp0 x
  refine ⟨t, ht, hl, hparams, hpll, ?_⟩
  obtain ⟨hnone, hhist, hsame⟩ | ⟨hone, hb, hhist⟩ := htick
  · rw [hnone, List.nil_append] at he
    obtain hscan | ⟨done, b, more, part, todo, hsplit, hrest, hc⟩ | hheld := he
    · exact .inl (hscan.of_sameFrame hsame hhist)
    · exact .inr (.inl ⟨done, b, more, part, todo, hsplit, hrest, hc.of_sameFrame hsame hhist⟩)
    · exact .inr (.inr (hheld.runTicks h.inv hp0 (xs := [x]) (by rw [runTicks_cons, ht]; rfl)))
  · rw [hone, List.singleton_append] at he
    obtain hscan | ⟨done, b, more, part, todo, rfl, hrest, hc⟩ | hheld := he
    · exact h.scans hp0 hb hne hscan ht
    · obtain ⟨c, todo, rfl⟩ := List.exists_cons_of_ne_nil hc.left
      obtain ⟨rfl, rfl⟩ := List.cons.inj hrest
      by_cases hleft : todo = []
      · subst hleft
        exact h.collects_byte hp0 hb hframe hc ht hhist
      · exact .inr (.inl ⟨done, b, more, _, todo, rfl, rfl, h.collects_bit hp0 hb hc hleft ht hhist⟩)
    · exact .inr (.inr (hheld.runTicks h.inv hp0 (xs := [x]) (by rw [runTicks_cons, ht]; rfl)))

theorem Expects.runTicks {frame : List Byte} (hframe : Receivable frame) {xs rest : List Bool} (h : s.Listening)
    (hp0 : s.params = Params.p0) (he : Expects frame s ((s.pll.run xs).2 ++ rest)) :
    ∃ t, Machine.runTicks xs s = .next t ∧ t.Inv ∧ t.params = Params.p0 ∧ Expects frame t rest := by
  induction xs generalizing s with
  | nil => exact ⟨s, rfl, h.inv, hp0, he⟩
  | cons x xs ih =>
    rw [Pll.run, List.append_assoc] at he
    obtain ⟨t, ht, hl, hparams, hpll, he⟩ := he.tick hframe h hp0
    obtain ⟨u, hu, hdone⟩ := ih hl hparams (hpll ▸ he)
    exact ⟨u, by rw [runTicks_cons, ht]; exact hu, hdone⟩

/-- A receiver just enabled, on a line that is low for any time, then carries the entries of a frame, then is low again,
holds the frame after the first low sample, and then on. -/
theorem Inv.receives {frame : List Byte} (hframe : Receivable frame) (hs : s.Inv) (hp0 : s.params = Params.p0) (z m : Nat) :
    ∃ t, Machine.runTicks (List.replicate z false ++
        (wire ((expandFrame Params.p0 frame).flatMap (entryBits Params.p0)) ++ false :: List.replicate m false))
        (s.enableRx.respond .ok 0) = .next t ∧ t.Inv ∧ t.params = Params.p0 ∧ t.Holds frame := by
  obtain ⟨lead, b, hclean, hstart, hrun⟩ := Pll.recovers z (frameBits frame)
  rw [← expandFrame_bits] at hrun
  obtain ⟨t, ht, hinv, hparams, he⟩ := Expects.runTicks (s := s.enableRx.respond .ok 0) (rest := []) hframe
    ⟨hs.enableRx.respond .ok 0, by rw [respond_params, enableRx_params, hp0]; rfl, rfl⟩ hp0
    (.inl ⟨rfl, rfl, lead, b, by rw [List.append_nil]; exact hrun, hclean, hstart⟩)
  obtain ⟨u, hu, huinv⟩ := hinv.runTicks (List.replicate m false)
  refine ⟨u, ?_, huinv, (params_of_runTicks hu).trans hparams, he.holds.runTicks hinv hparams hu⟩
  rw [List.append_cons, ← List.append_assoc, runTicks_append, ht]
  exact hu

end State

end Sys2Proof.Machine
end

section
/-! Two blocks in P0 wired pin to pin (46_link_layer_contract.md R212, 95_test_vectors.md section 3): the receiver hears what
the sender drives, so a frame that is sent arrives, and `recv` gives back what was sent. -/

namespace Sys2Proof.Machine

/-! ### What a sender drives -/

/-- The ticks `xs` take the first of two wired blocks from `a` to `a'`, and the second hears `pins`. -/
def Drives (xs : List Bool) (a : State) (pins : List Bool) (a' : State) : Prop :=
  ∀ b b', runTicks pins b = .next b' → wiredTicks xs (a, b) = .next (a', b')

/-- The commands `ops`, with ticks among them, take the first of two wired blocks from `a` to `a'`, and the second hears
`pins`. -/
def DrivesSpaced (ops : List Instr) (gaps : List (List Bool)) (a : State) (pins : List Bool) (a' : State) : Prop :=
  ∀ b b', runTicks pins b = .next b' → wiredSpaced ops gaps (a, b) = .next (a', b')

section

variable {a a' v : State} {x : Bool} {xs ys pins more : List Bool}

theorem Drives.nil (a : State) : Drives [] a [] a := fun b b' h => by
  cases h
  rfl

theorem Drives.cons (h : exec (.tick x) a = .next v) (hrest : Drives xs v pins a') :
    Drives (x :: xs) a (v.txOut :: pins) a' := fun b b' hb => by
  obtain ⟨c, hc, hb⟩ := andThen_eq_next.1 hb
  rw [wiredTicks_cons, wiredTick, h, andThen_next, hc, andThen_next, andThen_next]
  exact hrest c b' hb

theorem Drives.append (h : Drives xs a pins v) (hrest : Drives ys v more a') :
    Drives (xs ++ ys) a (pins ++ more) a' := fun b b' hb => by
  rw [runTicks_append] at hb
  obtain ⟨c, hc, hb⟩ := andThen_eq_next.1 hb
  rw [wiredTicks_append, h b c hc]
  exact hrest c b' hb

theorem DrivesSpaced.nil (gaps : List (List Bool)) (a : State) : DrivesSpaced [] gaps a [] a := fun b b' hb => by
  cases hb
  rfl

theorem DrivesSpaced.cons {i : Instr} {ops : List Instr} {gaps : List (List Bool)} {u : State}
    (h : Drives (gaps.headD []) a pins v) (hi : exec i v = .next u) (hrest : DrivesSpaced ops gaps.tail u more a') :
    DrivesSpaced (i :: ops) gaps a (pins ++ more) a' := fun b b' hb => by
  rw [runTicks_append] at hb
  obtain ⟨c, hc, hb⟩ := andThen_eq_next.1 hb
  rw [wiredSpaced_cons, h b c hc, andThen_next, hi]
  exact hrest c b' hb

/-! ### An idle sender -/

/-- An idle transmitter stays idle along ticks and drives the pin low (41_tick_tx.md R151). -/
theorem State.Inv.drives_low (ha : a.Inv) (hidle : a.txActive = false) (h : Machine.runTicks xs a = .next a') :
    a'.txActive = false ∧ Drives xs a (List.replicate xs.length false) a' := by
  induction xs generalizing a with
  | nil =>
    cases h
    exact ⟨hidle, .nil _⟩
  | cons x xs ih =>
    obtain ⟨v, hv, h⟩ := andThen_eq_next.1 h
    have hvinv := ha.of_exec hv
    obtain ⟨hsame, -⟩ := State.sameTransmitGroup_of_idle_tick hidle hv
    obtain ⟨hdone, hdrives⟩ := ih hvinv (hsame.trans hidle) h
    obtain ⟨hlow, -⟩ := hvinv.tx_idle (hsame.trans hidle)
    have hpins := Drives.cons hv hdrives
    rw [hlow] at hpins
    exact ⟨hdone, hpins⟩

/-- No command but `TX_START` makes an idle transmitter active (R182). -/
theorem CommandLeads.idle {i : Instr} {s t : State} (h : CommandLeads s i t) (hi : i ≠ .txStart)
    (hidle : s.txActive = false) : t.txActive = false := by
  cases h with
  | reset => rfl
  | txStart => exact absurd rfl hi
  | answers | rxEnable | rxDisable | rxClear | txClear | txPush => exact hidle

/-- Until its last command, a `TX_START`, is carried out a sender drives the pin low. -/
theorem State.Inv.drives_low_until_start {ops : List Instr} (hops : ∀ i ∈ ops, i.wf .command = true ∧ i ≠ .txStart)
    {gaps : List (List Bool)} (ha : a.Inv) (hidle : a.txActive = false)
    (h : Machine.runSpaced (ops ++ [.txStart]) gaps a = .next a') :
    ∃ z, DrivesSpaced (ops ++ [.txStart]) gaps a (List.replicate z false) a' := by
  induction ops generalizing a gaps with
  | nil =>
    obtain ⟨u, hu, hend⟩ := andThen_eq_next.1 h
    cases hend
    obtain ⟨v, hv, hstart⟩ := andThen_eq_next.1 hu
    obtain ⟨-, hdrives⟩ := ha.drives_low hidle hv
    exact ⟨_, by simpa using DrivesSpaced.cons hdrives hstart (.nil gaps.tail a')⟩
  | cons i ops ih =>
    obtain ⟨u, hu, hrest⟩ := andThen_eq_next.1 h
    obtain ⟨v, hv, hi⟩ := andThen_eq_next.1 hu
    obtain ⟨hcommand, hnot⟩ := hops i (by simp)
    obtain ⟨hstill, hdrives⟩ := ha.drives_low hidle hv
    obtain ⟨z, hz⟩ := ih (fun j hj => hops j (by simp [hj])) ((ha.of_runTicks hv).of_exec hi)
      ((commandLeads_of_exec hcommand hi).idle hnot hstill) hrest
    exact ⟨_, by rw [List.replicate_add]; exact .cons hdrives hi hz⟩

end

/-! ### A sender that sends -/

/-- Counting through `n * c` places is counting through `n` groups of `c`. -/
theorem map_range_mul {α : Type} (f : Nat → Nat → α) (n : Nat) {c : Nat} (hc : 0 < c) :
    (List.range (n * c)).map (fun k => f (k / c) (k % c)) = (List.range n).flatMap fun i => (List.range c).map (f i) := by
  induction n with
  | zero => simp
  | succ n ih =>
    have hgroup : ∀ k ∈ List.range c, f ((n * c + k) / c) ((n * c + k) % c) = f n k := fun k hk => by
      have hlt := List.mem_range.1 hk
      rw [Nat.mul_add_mod_of_lt hlt, Nat.mul_comm, Nat.mul_add_div hc, Nat.div_eq_of_lt hlt, Nat.add_zero]
    rw [Nat.succ_mul, List.range_add, List.map_append, ih, List.map_map, List.range_succ, List.flatMap_append,
      List.flatMap_singleton]
    exact congrArg _ (List.map_congr_left hgroup)

/-- Each tick of a transmission shows the bit of the stream that its eighth names (41_tick_tx.md R159). -/
theorem State.Sending.drives {s v : State} {T : Nat} (h : s.Sending T v) {xs : List Bool}
    (hT : T + xs.length ≤ 8 * s.streamBits) :
    ∃ t, s.Sending (T + xs.length) t ∧
      Drives xs v ((List.range xs.length).map fun k => s.streamBit ((T + k) / 8)) t := by
  induction xs generalizing T v with
  | nil => exact ⟨v, h, .nil v⟩
  | cons x xs ih =>
    rw [List.length_cons] at hT
    obtain ⟨t, ht, -⟩ := h.inv.exec_tick x
    have hnext := h.tick (by omega) ht
    obtain ⟨u, hu, hdrives⟩ := ih hnext (by omega)
    refine ⟨u, by rwa [List.length_cons, Nat.add_comm xs.length 1, ← Nat.add_assoc], ?_⟩
    have hout : t.txOut = s.streamBit ((T + 0) / 8) := hnext.out (Nat.succ_pos T)
    have hpins := Drives.cons ht hdrives
    rw [hout] at hpins
    rw [List.length_cons, List.range_succ_eq_map, List.map_cons, List.map_map]
    simpa only [Function.comp_def, Nat.succ_eq_add_one, Nat.add_assoc, Nat.add_comm 1] using hpins

/-- The ticks of a whole transmission drive its bits, eight ticks a bit. -/
theorem wire_stream (s : State) : (List.range (8 * s.streamBits)).map (fun k => s.streamBit (k / 8)) =
    wire ((List.range s.streamBits).map s.streamBit) := by
  rw [Nat.mul_comm, map_range_mul (fun i _ => s.streamBit i) _ (by decide), wire, List.flatMap_map]
  simp

/-- The stream of a loaded buffer is the bits of its entries (30_encoding.md R102). -/
theorem State.Loaded.stream {p : Params} {entries : List Byte} {t : State} (h : State.Loaded p entries t)
    (hp : p.wf = true) : (List.range t.streamBits).map t.streamBit = entries.flatMap (entryBits p) := by
  have hone := (Params.facts hp).one_le_symbolBits
  obtain rfl := h.params
  calc (List.range t.streamBits).map t.streamBit
      = (List.range t.txLen.toNat).flatMap fun i => (List.range t.params.symbolBits).map (t.byteAt .tx i).getLsbD :=
        map_range_mul (fun i => (t.byteAt .tx i).getLsbD) _ hone
    _ = ((List.range t.txLen.toNat).map (t.byteAt .tx)).flatMap (entryBits t.params) := by
        rw [List.flatMap_map]
        rfl
    _ = entries.flatMap (entryBits t.params) := by rw [h.map_range]

/-- A transmission and the ticks after it drive the bits of its entries and then a low line, and leave the transmitter
idle. -/
theorem State.Loaded.drives {entries : List Byte} {t : State} (h : State.Loaded Params.p0 entries t) (ht : t.Inv)
    {heard : List Bool} (hlen : 8 * (entries.length * 6) + 1 ≤ heard.length) :
    ∃ u m, u.txActive = false ∧ Drives heard (t.startTx.respond .ok 0)
      (wire (entries.flatMap (entryBits Params.p0)) ++ false :: List.replicate m false) u := by
  have hbits : t.streamBits = entries.length * 6 := by rw [State.streamBits, h.txLen, h.params]; rfl
  obtain ⟨x, ys, hsplit⟩ := List.exists_cons_of_length_pos (l := heard.drop (8 * t.streamBits))
    (by rw [List.length_drop, hbits]; omega)
  have htake : (heard.take (8 * t.streamBits)).length = 8 * t.streamBits :=
    List.length_take_of_le (by rw [hbits]; omega)
  obtain ⟨v, hv, hframe⟩ := ht.sending_start.drives (xs := heard.take (8 * t.streamBits)) (by omega)
  rw [Nat.zero_add, htake] at hv
  obtain ⟨w, hw, hwinv⟩ := hv.inv.exec_tick x
  obtain ⟨hidle, hlow, -⟩ := hv.completes hw
  obtain ⟨u, hu, -⟩ := hwinv.runTicks ys
  obtain ⟨hend, hafter⟩ := hwinv.drives_low hidle hu
  refine ⟨u, ys.length, hend, ?_⟩
  have hall := hframe.append (.cons hw hafter)
  simp only [Nat.zero_add, htake, wire_stream, h.stream reset_params_wf, hlow] at hall
  rwa [← hsplit, List.take_append_drop] at hall

/-! ### The frame arrives -/

/-- Commands that end with `TX_START` on a buffer loaded with a frame's entries, and then enough ticks, leave the sender
idle and the frame with the receiver that was enabled before. -/
theorem State.Inv.delivers {a b t : State} (ha : a.Inv) (hb : b.Inv) (hp0 : b.params = Params.p0)
    (hidle : a.txActive = false) {ops : List Instr} (hops : ∀ i ∈ ops, i.wf .command = true ∧ i ≠ .txStart)
    {gaps : List (List Bool)} {frame : List Byte} (hframe : Receivable frame) (ht : t.Inv)
    (hloaded : State.Loaded Params.p0 (expandFrame Params.p0 frame) t)
    (hrun : Machine.runSpaced (ops ++ [.txStart]) gaps a = .next (t.startTx.respond .ok 0)) {heard : List Bool}
    (hlen : 8 * ((8 + 2 * frame.length) * 6) + 1 ≤ heard.length) :
    ∃ a₂ b₂ b₃, wiredSpaced (ops ++ [.txStart]) gaps (a, b.enableRx.respond .ok 0) =
        .next (t.startTx.respond .ok 0, b₂) ∧
      wiredTicks heard (t.startTx.respond .ok 0, b₂) = .next (a₂, b₃) ∧ a₂.txActive = false ∧ b₃.Inv ∧
      b₃.params = Params.p0 ∧ b₃.Holds frame := by
  obtain ⟨z, hlow⟩ := ha.drives_low_until_start hops hidle hrun
  obtain ⟨a₂, m, hdone, hdrives⟩ := hloaded.drives ht (heard := heard)
    (by rw [length_expandFrame]; exact hlen)
  obtain ⟨b₃, hreceived, hinv, hparams, hholds⟩ := hb.receives hframe hp0 z m
  rw [runTicks_append] at hreceived
  obtain ⟨b₂, hb₂, hb₃⟩ := andThen_eq_next.1 hreceived
  exact ⟨a₂, b₂, b₃, hlow _ _ hb₂, hdrives _ _ hb₃, hdone, hinv, hparams, hholds⟩

namespace State

/-- A held frame read out from its first byte to its last. -/
theorem Holds.map_range {frame : List Byte} {s : State} (h : s.Holds frame) :
    (List.range s.bufLen.toNat).map (s.byteAt .rx) = frame := by
  refine List.ext_getElem (by simp [h.bufLen]) fun k hk hk' => ?_
  rw [List.getElem_map, List.getElem_range, h.bytes k hk']

/-- `recv` on a held frame is the checks of that frame (20_memory.md R74, 46_link_layer_contract.md R206). -/
theorem Holds.recv {frame : List Byte} {s : State} (h : s.Holds frame) (hs : s.Inv) (hp0 : s.params = Params.p0)
    {network : Word} {device broadcast : Byte} {r : Recv}
    (hcheck : pollResult (checkFrame network device broadcast frame) = some r) (during : List (List Bool)) :
    ∃ t, Machine.recv network device broadcast during [] s = .next (r, t) ∧ t.rxReady = false := by
  obtain ⟨bytes, t, ht, -, hready, -, -, hsafe⟩ := (hs.respond .ok s.statusWord).drain during
  obtain ⟨hbytes, -⟩ := hsafe (.inr (.inr ⟨by rw [respond_params, hp0]; rfl, h.ready⟩))
  have hframe : bytes = frame := hbytes.trans h.map_range
  have hpoll := recvPoll_of_ready network device broadcast hs.params_wf h.ready ht
  rw [hframe, hcheck] at hpoll
  exact ⟨t, recv_of_some hpoll [], hready⟩

end State

/-- The commands of `LOAD` are commands, and none of them is `TX_START`. -/
theorem loadOps_commands (entries : List Byte) : ∀ i ∈ loadOps entries, i.wf .command = true ∧ i ≠ .txStart := by
  intro i hi
  obtain rfl | ⟨e, -, rfl⟩ := by simpa [loadOps] using hi
  · exact ⟨rfl, Instr.noConfusion⟩
  · exact ⟨rfl, Instr.noConfusion⟩

/-- The frame of a payload of at most 30 bytes is one that P0 takes (46_link_layer_contract.md R202, R205). -/
theorem receivable_buildFrame (h : Header) {payload : List Byte} (hlen : payload.length ≤ 30) :
    State.Receivable (buildFrame h payload) := by
  have hlength := length_buildFrame h payload
  have hfirst := getD_zero_buildFrame h payload (by omega)
  exact ⟨by omega, by omega, by omega⟩

/-! ### The round trip -/

/-- `send` from an idle state is `CSR_RD 0` and `SEND_BYTES` (43_host_tx_commands.md R183). -/
theorem State.Inv.send_idle {s : State} (hs : s.Inv) (hidle : s.txActive = false) {payload : List Byte}
    (hlen : payload.length ≤ s.params.payloadMax) (gaps : List (List Bool)) (h : Header) :
    send gaps h payload s =
      andThen (Machine.runSpaced (.csrRd 0 :: sendBytesOps s.params (buildFrame h payload)) gaps s) fun v =>
        .next (.sent, v) := by
  obtain ⟨u, hu, hinv⟩ := hs.runTicks (gaps.headD [])
  obtain ⟨hstill, -⟩ := hs.drives_low hidle hu
  rw [send_eq hlen hu hinv.params_wf, hstill, if_neg Bool.false_ne_true, runSpaced_cons, Machine.issue, hu, andThen_next,
    exec_csrRd_zero hinv.params_wf, andThen_next]

/-- The frame of a payload of at most 30 bytes fits the symbol buffer of P0 (46_link_layer_contract.md R203). -/
theorem length_expandFrame_p0_le {frame : List Byte} (hframe : State.Receivable frame) :
    (expandFrame Params.p0 frame).length ≤ Params.p0.txBufCap := by
  have hmax := hframe.max
  rw [length_expandFrame]
  simp only [Params.p0, List.length_cons, List.length_nil]
  omega

/-- Settles O57: the frame arrives whole, and the checks of `recv` pass at its addressee. -/
theorem roundTripReproducesTheMessage : Obligations.RoundTripReproducesTheMessage := by
  intro a b h payload gaps during heard device broadcast ha hb hap hbp hidle hlen hheard haddress
  have hframe := receivable_buildFrame h hlen
  obtain ⟨u, hu, huinv⟩ := ha.runTicks (gaps.headD [])
  obtain ⟨hstill, -⟩ := ha.drives_low hidle hu
  have hup : u.params = Params.p0 := (State.params_of_runTicks hu).trans hap
  obtain ⟨t, htinv, hloaded, ht⟩ := (huinv.respond .ok u.statusWord).sendSyms_spaced hstill
    (entries := expandFrame Params.p0 (buildFrame h payload))
    (by rw [State.respond_params, hup]; exact length_expandFrame_p0_le hframe) gaps.tail
  rw [State.respond_params, hup] at hloaded
  have hrun : runSpaced (.csrRd 0 :: sendBytesOps a.params (buildFrame h payload)) gaps a =
      .next (t.startTx.respond .ok 0) := by
    rw [runSpaced_cons, issue, hu, andThen_next, exec_csrRd_zero huinv.params_wf, andThen_next, sendBytesOps, hap]
    exact ht
  have hsend := ha.send_idle hidle (payload := payload) (by rw [hap]; exact hlen) gaps h
  rw [hrun, andThen_next] at hsend
  rw [sendBytesOps, sendSymsOps, hap, ← List.cons_append] at hrun
  obtain ⟨a₂, b₂, b₃, hwired, hticks, hdone, hinv, hparams, hholds⟩ := ha.delivers hb hbp hidle
    (List.forall_mem_cons.2 ⟨⟨rfl, Instr.noConfusion⟩, loadOps_commands _⟩) hframe htinv hloaded hrun
    (by rw [length_buildFrame]; exact hheard)
  have hcheck := (builtFrameIsReceivedByItsAddresseeOnly h payload h.network device broadcast).1 ⟨rfl, haddress⟩
  obtain ⟨b₄, hrecv, hready⟩ := hholds.recv hinv hparams (r := .message h.src h.port payload)
    (by rw [hcheck]; rfl) during
  refine ⟨_, a₂, _, b₂, b₃, b₄, exec_rxEnable hb.params_wf, hsend, ?_, hticks, hdone, hholds.ready, hholds.map_range, hrecv,
    hready⟩
  rw [sendBytesOps, sendSymsOps, hap]
  exact hwired

/-! ### A flipped bit -/

/-- A bit flipped behind the first byte leaves a frame that P0 takes. -/
theorem State.Receivable.flipBit {frame : List Byte} (hframe : State.Receivable frame) {i : Nat} (hi : i ≠ 0) (j : Nat) :
    State.Receivable (flipBit frame i j) := by
  have hlen : (Machine.flipBit frame i j).length = frame.length := List.length_modify ..
  have hfirst : (Machine.flipBit frame i j).getD 0 0 = frame.getD 0 0 := by
    rw [Machine.flipBit, List.getD_eq_getElem?_getD, List.getElem?_modify_ne _ _ hi, ← List.getD_eq_getElem?_getD]
  exact ⟨hlen ▸ hframe.min, hlen ▸ hframe.max, by rw [hfirst, hlen]; exact hframe.first⟩

/-- Settles O58: the checks fail on the flipped frame, and the frame arrives as it was sent. -/
theorem flippedBitIsAChecksumMismatch : Obligations.FlippedBitIsAChecksumMismatch := by
  refine ⟨fun h payload i j network device broadcast hi hj => checkFrame_flipBit h payload hi hj network device broadcast,
    ?_⟩
  intro a b h payload gaps during heard i j network device broadcast ha hb hap hbp hidle hlen hheard hi hj
  have hframe := (receivable_buildFrame h hlen).flipBit (i := 6 + i) (by omega) j
  obtain ⟨t, htinv, hloaded, hrun⟩ := ha.sendSyms_spaced hidle
    (entries := expandFrame Params.p0 (flipBit (buildFrame h payload) (6 + i) j))
    (by rw [hap]; exact length_expandFrame_p0_le hframe) gaps
  rw [hap] at hloaded
  obtain ⟨a₂, b₂, b₃, hwired, hticks, -, hinv, hparams, hholds⟩ := ha.delivers hb hbp hidle (loadOps_commands _) hframe
    htinv hloaded hrun (by rw [flipBit, List.length_modify, length_buildFrame]; exact hheard)
  have hcheck := checkFrame_flipBit h payload (i := 6 + i) (by rw [length_buildFrame]; omega) hj network device broadcast
  obtain ⟨b₄, hrecv, hready⟩ := hholds.recv hinv hparams (r := .checksumMismatch) (by rw [hcheck]; rfl) during
  refine ⟨_, a₂, _, b₂, b₃, b₄, exec_rxEnable hb.params_wf, ?_, hticks, hholds.ready, hrecv, hready⟩
  rw [sendBytesOps, hap]
  exact hwired

end Sys2Proof.Machine
end
